-- ==== Sys2Proof/Word.lean ====
section
/-! DEFINITION. Word.lean: the register word and the byte (R8, R9). -/

namespace Sys2Proof

/-- R8: "All register widths are 32 bits. The clock input is 32 bits." -/
abbrev Word := BitVec 32

/-- R8: "Data bytes are 8 bits." -/
abbrev Byte := BitVec 8

end Sys2Proof
end

