-- ==== Sys2Proof/Syntax.lean ====
section
/-! DEFINITION. Syntax.lean: the host commands (R80, R81), one constructor per row of spec/opcode_table.json. -/

namespace Sys2Proof

/-- R36, R82: MODE, the checksum's coverage. -/
inductive ChecksumMode where
  | classic    -- 0
  | enhanced   -- 1
  deriving DecidableEq, Repr

/-- R36, R82: DIR, the direction of the transaction. -/
inductive Direction where
  | write   -- 0, master-write
  | read    -- 1, master-read
  deriving DecidableEq, Repr

/-- The commands, with the operands R80 gives them. LEN is the whole 4-bit field, so the illegal lengths 9..15 of
R86(a), which have an effect, are terms too. -/
inductive Instr where
  | nop
  | request (id : BitVec 6) (len : BitVec 4) (mode : ChecksumMode) (dir : Direction)
  | poll
  | reset
  | config (baud : BitVec 24)
  | load (id : BitVec 6) (len : BitVec 4) (mode : ChecksumMode) (dir : Direction)
  | stepBreak
  | stepBody
  | stepRecv
  | reserved9
  | reservedA
  | reservedB
  | reservedC
  | reservedD
  | reservedE
  | reservedF
  deriving DecidableEq, Repr

end Sys2Proof
end

