-- ==== Sys2Proof/Decode.lean ====
section
/-! DEFINITION. Decode.lean: command words to commands and back (R80 to R87). Decoding is total: each of the sixteen
values of OP is assigned (R81), and every bit R80 marks ignored is dropped (R84). -/

namespace Sys2Proof

/-- Why a run of bytes is no command: R87, "Every command is exactly one 32-bit word". -/
inductive Reject where
  /-- fewer than four bytes are left. -/
  | truncated (got : Nat)
  deriving DecidableEq, Repr

/-- R9: `v[lo+n-1:lo]`. -/
def field (w : Word) (lo n : Nat) : BitVec n := w.extractLsb' lo n

/-- R80: OP is bits [3:0]. -/
def opOf (w : Word) : BitVec 4 := field w 0 4

/-- R82: `ID = w[9:4]`. -/
def idOf (w : Word) : BitVec 6 := field w 4 6

/-- R82: `LEN = w[13:10]`. -/
def lenOf (w : Word) : BitVec 4 := field w 10 4

/-- R80: MODE 0 is classic, 1 enhanced. -/
def ChecksumMode.ofBit (b : BitVec 1) : ChecksumMode := if b = 1#1 then .enhanced else .classic

/-- R80. -/
def ChecksumMode.toBit : ChecksumMode → BitVec 1
  | .classic => 0#1
  | .enhanced => 1#1

/-- R80: DIR 0 is WRITE, 1 READ. -/
def Direction.ofBit (b : BitVec 1) : Direction := if b = 1#1 then .read else .write

/-- R80. -/
def Direction.toBit : Direction → BitVec 1
  | .write => 0#1
  | .read => 1#1

/-- R82: `MODE = w[14]`. -/
def modeOf (w : Word) : ChecksumMode := ChecksumMode.ofBit (field w 14 1)

/-- R82: `DIR = w[15]`. -/
def dirOf (w : Word) : Direction := Direction.ofBit (field w 15 1)

/-- R83: `BAUD_NEW = w[31:8]`. -/
def baudOf (w : Word) : BitVec 24 := field w 8 24

/-- R81: "A decoder needs only `w[3:0]` to select the command". The last arm is the one value of a 4-bit field that
the arms before it leave, 0xF. -/
def decodeWord (w : Word) : Instr :=
  match (opOf w).toNat with
  | 0x0 => .nop
  | 0x1 => .request (idOf w) (lenOf w) (modeOf w) (dirOf w)
  | 0x2 => .poll
  | 0x3 => .reset
  | 0x4 => .config (baudOf w)
  | 0x5 => .load (idOf w) (lenOf w) (modeOf w) (dirOf w)
  | 0x6 => .stepBreak
  | 0x7 => .stepBody
  | 0x8 => .stepRecv
  | 0x9 => .reserved9
  | 0xA => .reservedA
  | 0xB => .reservedB
  | 0xC => .reservedC
  | 0xD => .reservedD
  | 0xE => .reservedE
  | _ => .reservedF

/-- R56: four bytes, the first the least significant. -/
def wordOfBytes (b0 b1 b2 b3 : Byte) : Word := b3 ++ b2 ++ b1 ++ b0

/-- R56: the bytes of a word, the least significant first. -/
def bytesOfWord (w : Word) : List Byte :=
  [w.extractLsb' 0 8, w.extractLsb' 8 8, w.extractLsb' 16 8, w.extractLsb' 24 8]

/-- R87: one command is four bytes; what follows is given back. -/
def decode : List Byte → Except Reject (Instr × List Byte)
  | b0 :: b1 :: b2 :: b3 :: rest => .ok (decodeWord (wordOfBytes b0 b1 b2 b3), rest)
  | bs => .error (.truncated bs.length)

/-- What the decoder reads from an instruction numbered as spec/opcode_table.json numbers its bits: the bits above
`nbits` are zero, and the word is laid out in its byte order. -/
def decodeTableWord (nbits w : Nat) : Option Instr :=
  match decode (bytesOfWord (BitVec.ofNat 32 (w % 2 ^ nbits))) with
  | .ok (i, []) => if w % 2 ^ nbits < 2 ^ 32 then some i else none
  | _ => none

/-- R81: the OP of a command. -/
def Instr.op : Instr → BitVec 4
  | .nop => 0x0
  | .request _ _ _ _ => 0x1
  | .poll => 0x2
  | .reset => 0x3
  | .config _ => 0x4
  | .load _ _ _ _ => 0x5
  | .stepBreak => 0x6
  | .stepBody => 0x7
  | .stepRecv => 0x8
  | .reserved9 => 0x9
  | .reservedA => 0xA
  | .reservedB => 0xB
  | .reservedC => 0xC
  | .reservedD => 0xD
  | .reservedE => 0xE
  | .reservedF => 0xF

/-- R80: bits [31:4] of REQUEST and LOAD, `0, DIR, MODE, LEN, ID`. -/
def transactionOperands (id : BitVec 6) (len : BitVec 4) (mode : ChecksumMode) (dir : Direction) : BitVec 28 :=
  0#16 ++ dir.toBit ++ mode.toBit ++ len ++ id

/-- R80, R84: bits [31:4] of the command word, every ignored bit 0 ("Software should write them as 0"). -/
def Instr.operands : Instr → BitVec 28
  | .request id len mode dir => transactionOperands id len mode dir
  | .load id len mode dir => transactionOperands id len mode dir
  | .config baud => baud ++ 0#4
  | .nop => 0
  | .poll => 0
  | .reset => 0
  | .stepBreak => 0
  | .stepBody => 0
  | .stepRecv => 0
  | .reserved9 => 0
  | .reservedA => 0
  | .reservedB => 0
  | .reservedC => 0
  | .reservedD => 0
  | .reservedE => 0
  | .reservedF => 0

/-- R80: the command word of a command. -/
def encode (i : Instr) : Word := i.operands ++ i.op

/-- The bytes of a command, as a host writes them (R56). -/
def encodeBytes (i : Instr) : List Byte := bytesOfWord (encode i)

end Sys2Proof
end

