-- ==== Sys2Proof/Machine/Codec.lean ====
section
/-! DEFINITION. Machine/Codec.lean: identifier parity and checksum (R101 to R104), pure functions (R100). -/

namespace Sys2Proof.Machine

/-- R101: `P0 = ID[0] ^ ID[1] ^ ID[2] ^ ID[4]`. PRESUMED (log 10: the spec marks the formula general knowledge). -/
def parityP0 (id : BitVec 6) : Bool :=
  ((id.getLsbD 0 ^^ id.getLsbD 1) ^^ id.getLsbD 2) ^^ id.getLsbD 4

/-- R101: `P1 = 1 ^ (ID[1] ^ ID[3] ^ ID[4] ^ ID[5])`. PRESUMED (log 10). -/
def parityP1 (id : BitVec 6) : Bool :=
  !(((id.getLsbD 1 ^^ id.getLsbD 3) ^^ id.getLsbD 4) ^^ id.getLsbD 5)

/-- R101: `computeParity(ID) → (P1, P0)`. -/
def computeParity (id : BitVec 6) : Bool × Bool := (parityP1 id, parityP0 id)

/-- R89, R102: `PID = {P1, P0, ID[5:0]}`. -/
def pidOf (id : BitVec 6) : Byte :=
  BitVec.ofBool (computeParity id).1 ++ BitVec.ofBool (computeParity id).2 ++ id

/-- R104: one step of the accumulator, with end-around carry. -/
def addFold (s : Nat) (b : Byte) : Nat :=
  if s + b.toNat > 255 then s + b.toNat - 255 else s + b.toNat

/-- R103, R104: the accumulator starts at PID in enhanced mode and at 0 in classic mode. -/
def checksumStart (pid : Byte) : ChecksumMode → Nat
  | .classic => 0
  | .enhanced => pid.toNat

/-- R104: `computeChecksum(PID, data, MODE)`, the one's complement of the accumulator. -/
def computeChecksum (pid : Byte) (data : List Byte) (mode : ChecksumMode) : Byte :=
  BitVec.ofNat 8 (0xFF - data.foldl addFold (checksumStart pid mode))

end Sys2Proof.Machine
end

