-- ==== Sys2Proof/Machine/Bytes.lean ====
section
/-! DEFINITION. Machine/Bytes.lean: the byte buffers TXDATA, TXFRAME and RXBUF and their 32-bit words (R38 to R40, R56). -/

namespace Sys2Proof.Machine

/-- The first `n` bytes of `l`, filled up with 0x00. -/
def padTo (n : Nat) (l : List Byte) : Vector Byte n :=
  ⟨((l ++ List.replicate n 0#8).take n).toArray, by simp⟩

/-- Byte `i` of a buffer (`d[i]`, `t[i]`, `r[i]`); there is none beyond the end, and 0x00 stands for it. -/
def byteAt {n : Nat} (v : Vector Byte n) (i : Nat) : Byte := v.toList.getD i 0#8

/-- `v[at .. at+l.length-1] <- l`, the other bytes kept; what would lie beyond the end is dropped. -/
def overlay {n : Nat} (v : Vector Byte n) (pos : Nat) (l : List Byte) : Vector Byte n :=
  padTo n (v.toList.take pos ++ l ++ v.toList.drop (pos + l.length))

/-- `v[lo .. lo+len-1]`. -/
def slice {n : Nat} (v : Vector Byte n) (lo len : Nat) : List Byte := (v.toList.drop lo).take len

/-- R56: word `k` of a buffer, byte `4k` in bits [7:0]. -/
def bufferWord {n : Nat} (v : Vector Byte n) (k : Nat) : Word :=
  byteAt v (4 * k + 3) ++ byteAt v (4 * k + 2) ++ byteAt v (4 * k + 1) ++ byteAt v (4 * k)

/-- R38, R56: word `k` of a buffer is written, byte `4k` from bits [7:0]. -/
def storeBufferWord {n : Nat} (v : Vector Byte n) (k : Nat) (w : Word) : Vector Byte n :=
  overlay v (4 * k) [w.extractLsb' 0 8, w.extractLsb' 8 8, w.extractLsb' 16 8, w.extractLsb' 24 8]

end Sys2Proof.Machine
end

