-- ==== Sys2Proof/Config.lean ====
section
/-! DEFINITION. Config.lean: the implementation parameters of R7. The three the document fixes are constants here;
the five an implementation chooses, and BASE (R74), are the fields of `Params`, which State holds. -/

namespace Sys2Proof

/-- R7, R91: bit-times per transmitted byte ("10 bit-times for 8N1 framing"). -/
def bitsPerByte : Nat := 10

/-- R7: ticks of the clock input per second. -/
def clockHz : Nat := 1000000

/-- R7: the largest data length. -/
def maxLen : Nat := 8

/-- R29, R86(b): the legal baud rates are 2..10,000,000. -/
def baudMin : Nat := 2

/-- R29, R86(b). -/
def baudMax : Nat := 10000000

/-- R50: the register space is 256 bytes long. -/
def blockBytes : Nat := 256

/-- R123: the deadline saturates at 2^31 - 1 microseconds. -/
def ttoMax : Nat := 2147483647

/-- R7, R125: which echo a master-write awaits. -/
inductive EchoScope where
  | frame    -- LEN + 4 bytes
  | header   -- 3 bytes
  deriving DecidableEq, Repr

/-- R7: the parameters fixed when the block is built, "A model takes each of them as an argument". BASE is the
parameter R74 adds. R35's PARAMS register reads out all but BAUD_RESET and BASE. -/
structure Params where
  breakMult      : BitVec 8
  timeoutMult    : BitVec 8
  baudReset      : BitVec 24
  writeEchoScope : EchoScope
  checkBreakEcho : Bool
  base           : Nat
  deriving DecidableEq, Repr

/-- R7: the defaults. `base` 0 is a DESIGN CHOICE (log 8: R74 leaves BASE to the platform). -/
def Params.default : Params where
  breakMult      := 2
  timeoutMult    := 2
  baudReset      := 19200
  writeEchoScope := .frame
  checkBreakEcho := false
  base           := 0

/-- R7: the legal values of the parameters. -/
abbrev Params.Legal (p : Params) : Prop :=
  p.breakMult ≠ 0 ∧ p.timeoutMult ≠ 0 ∧ baudMin ≤ p.baudReset.toNat ∧ p.baudReset.toNat ≤ baudMax

end Sys2Proof
end

