-- ==== Sys2Proof/Machine/Timing.lean ====
section
/-! DEFINITION. Machine/Timing.lean: the durations, in microseconds, and the break's bit rate (R121 to R124). Each is
computed on naturals and narrowed to its register; with legal parameters and a legal BAUD nothing is lost (log 14). -/

namespace Sys2Proof.Machine

/-- R121: `TBYTE = (BITS_PER_BYTE * CLOCK_HZ) div BAUD`, rounded down. -/
def tbyteOf (baud : BitVec 24) : Word := BitVec.ofNat 32 (bitsPerByte * clockHz / baud.toNat)

/-- R122: `TBRK = BREAK_MULT * TBYTE`. -/
def tbrkOf (p : Params) (tbyte : Word) : Word := BitVec.ofNat 32 (p.breakMult.toNat * tbyte.toNat)

/-- R123: `TTO = min(TIMEOUT_MULT * (LEN + 5) * TBYTE, 2^31 - 1)`. -/
def ttoOf (p : Params) (len : BitVec 4) (tbyte : Word) : Word :=
  BitVec.ofNat 32 (min (p.timeoutMult.toNat * (len.toNat + 5) * tbyte.toNat) ttoMax)

/-- R124: the break bit rate is `BAUD div 2`, rounded down. -/
def breakRate (baud : BitVec 24) : BitVec 24 := baud / 2

end Sys2Proof.Machine
end

