-- ==== Sys2Proof/Machine/State.lean ====
section
/-! DEFINITION. Machine/State.lean: the engine's state (R20 to R40), the inputs it observes (R37, R41, R51) and the
transport calls it makes (R215), as plain data. -/

namespace Sys2Proof.Machine

/-- R23: STATE. -/
inductive Phase where
  | idle    -- 0
  | brk     -- 1 (BREAK)
  | body    -- 2
  | done    -- 3
  deriving DecidableEq, Repr

/-- R36: the fields of FRAME. ID and PAR are bits of PID. The reserved bits [15:14] read 0 and have no storage. -/
structure Frame where
  pid   : Byte
  len   : BitVec 4
  mode  : ChecksumMode
  dir   : Direction
  chk   : Byte
  rxlen : BitVec 4
  txlen : BitVec 4
  deriving DecidableEq, Repr

/-- FRAME = 0. -/
def Frame.zero : Frame where
  pid   := 0
  len   := 0
  mode  := .classic
  dir   := .write
  chk   := 0
  rxlen := 0
  txlen := 0

/-- R60 to R65: a call the engine makes on the transport port, with the transport's answer where there is one. -/
inductive Call where
  | rxDiscard
  | setBaud (rate : BitVec 24)
  | txWrite (bytes : List Byte)
  | rxAvail (count : Nat)
  | rxRead  (bytes : List Byte)
  deriving DecidableEq, Repr

/-- What reaches the engine from outside: a host access (R51; the width is in bytes, the address is that of the
platform's bus, R74) or power-on reset (R200). -/
inductive Access where
  | powerOnReset
  | read  (addr width : Nat)
  | write (addr width : Nat) (value : Word)
  deriving DecidableEq, Repr

/-- An access, with what the clock and the transport bring to it: the microseconds since the access before (R37, U4;
log 2), all that the transport's receive buffer holds (R76, U3; log 3), and the bytes its send queue can take (R61, U2;
log 4). -/
structure Event where
  dt     : Nat
  rx     : List Byte
  txRoom : Nat
  access : Access
  deriving DecidableEq, Repr

/-- The machine stops with a fault. -/
inductive Fault where
  /-- Raised by a host access whose address is outside the register space (R50). Safe: the machine stops. -/
  | noSuchRegister
  deriving DecidableEq, Repr

/-- No meaning is given. -/
inductive Refusal where
  /-- An instruction without a meaning, rejected by `exec` itself. Safe. No arm answers with it. -/
  | notModelled (mnemonic : String)
  /-- Raised by a host access of a width other than 4 bytes or at an offset that is no multiple of 4 (R57, U1: "A
  model refuses it"). Safe: the machine stops. -/
  | unsupportedAccess
  /-- Raised by the port's `TxWrite` when the send queue cannot take the bytes (R61, U2: "a model refuses that run").
  Safe: the machine stops. -/
  | transportFull
  deriving DecidableEq, Repr

/-- Everything the spec gives the machine, then its inputs and outputs. INVENTORY.md lists each field. -/
structure State where
  phase     : Phase              -- STATE, R23
  loaded    : Bool               -- LOADED, R24
  accept    : Bool               -- ACCEPT, R25
  err       : BitVec 4           -- ERR, R26
  rxdone    : Bool               -- RXDONE, R27, R40
  baud      : BitVec 24          -- BAUD[23:0], R29
  tbyte     : Word               -- TBYTE, R30
  tbrk      : Word               -- TBRK, R31
  tto       : Word               -- TTO, R32
  tstartBrk : Word               -- TSTART_BRK, R33
  tstartTx  : Word               -- TSTART_TX, R34
  txdata    : Vector Byte 8      -- TXDATA d[0..7], R38
  frame     : Frame              -- FRAME, R36
  txframe   : Vector Byte 12     -- TXFRAME t[0..11], R39
  rxbuf     : Vector Byte 12     -- RXBUF r[0..11], R40
  params    : Params             -- PARAMS, R35, and the parameters of R7 and R74
  now       : Word               -- the clock input at the current access, R37
  rx        : List Byte          -- the transport's receive buffer at the current access, R41
  txRoom    : Nat                -- the bytes the transport's send queue can take, R61
  pending   : List Event         -- the accesses to come, the next one first, R68
  calls     : List Call          -- the transport calls made, the first one first, R67, R215
  reads     : List (Nat × Word)  -- the offset and value of each host read, the first one first, R51
  deriving DecidableEq, Repr

/-- R43, R200: the reset value of every piece of engine state, for the parameters `p`. The fields from `now` on are no
engine state: log 1 to log 6 name their values. -/
def State.resetWith (p : Params) : State where
  phase     := .idle
  loaded    := false
  accept    := false
  err       := 0
  rxdone    := false
  baud      := p.baudReset
  tbyte     := tbyteOf p.baudReset
  tbrk      := tbrkOf p (tbyteOf p.baudReset)
  tto       := 0
  tstartBrk := 0
  tstartTx  := 0
  txdata    := padTo 8 []
  frame     := Frame.zero
  txframe   := padTo 12 []
  rxbuf     := padTo 12 []
  params    := p
  now       := 0
  rx        := []
  txRoom    := 11
  pending   := []
  calls     := []
  reads     := []

/-- The machine right after power-on reset, with the default parameters (R7, R43). -/
def State.reset : State := State.resetWith Params.default

end Sys2Proof.Machine
end

