-- ==== Sys2Proof/Machine/Flags.lean ====
section
/-! DEFINITION. Machine/Flags.lean: the four error flags (R26, R181) and response validation, which computes two of
them (R107 to R110). -/

namespace Sys2Proof.Machine

/-- R26: ERR bit 0. -/
def errorState : BitVec 4 := 0x1
/-- R26: ERR bit 1. -/
def errorTimeout : BitVec 4 := 0x2
/-- R26: ERR bit 2. -/
def errorEcho : BitVec 4 := 0x4
/-- R26: ERR bit 3. -/
def errorChk : BitVec 4 := 0x8

/-- R10: `flag(F)` is `ERR <- ERR | F`. -/
def State.flag (s : State) (f : BitVec 4) : State := { s with err := s.err ||| f }

/-- R108: the SYNC and PID echoes always, the break artifact when CHECK_BREAK_ECHO = 1. -/
def echoMismatch (p : Params) (t r : Vector Byte 12) : Bool :=
  decide (byteAt r 1 ≠ byteAt t 1) || decide (byteAt r 2 ≠ byteAt t 2) ||
    (p.checkBreakEcho && decide (byteAt r 0 ≠ 0x00#8))

/-- R109: made only when RXLEN = LEN + 4; over the received data, with the transmitted PID. -/
def checksumMismatch (f : Frame) (r : Vector Byte 12) : Bool :=
  decide (f.rxlen.toNat = f.len.toNat + 4) &&
    decide (computeChecksum f.pid (slice r 3 f.len.toNat) f.mode ≠ byteAt r (3 + f.len.toNat))

/-- R107, R110: both checks are made, and `v` is the OR of their results. -/
def validateResponse (p : Params) (f : Frame) (t r : Vector Byte 12) : BitVec 4 :=
  (if echoMismatch p t r then errorEcho else 0) ||| (if checksumMismatch f r then errorChk else 0)

end Sys2Proof.Machine
end

