-- ==== Sys2Proof/Machine/Operands.lean ====
section
/-! DEFINITION. Machine/Operands.lean: what the operands of REQUEST, LOAD and CONFIG say: their legal values (R86), the
lengths (R125) and the bytes of the outgoing frame (R88, R126). -/

namespace Sys2Proof.Machine

/-- R86(a): "DATA length is 0–8 bytes". -/
def legalLen (len : BitVec 4) : Bool := decide (len.toNat ≤ maxLen)

/-- R86(b): the legal range of a baud rate is 2..10,000,000. -/
def legalBaud (baud : BitVec 24) : Bool := decide (baudMin ≤ baud.toNat) && decide (baud.toNat ≤ baudMax)

/-- R125: `TXLEN <- (DIR = WRITE) ? LEN + 4 : 3`. -/
def txlenOf (len : BitVec 4) : Direction → BitVec 4
  | .write => len + 4
  | .read => 3

/-- R125: `RXLEN <- (DIR = WRITE and WRITE_ECHO_SCOPE = HEADER) ? 3 : LEN + 4`. -/
def rxlenOf (p : Params) (len : BitVec 4) : Direction → BitVec 4
  | .write => match p.writeEchoScope with
    | .header => 3
    | .frame => len + 4
  | .read => len + 4

/-- R126: CHK of the outgoing frame; 0 for READ. -/
def outgoingChecksum (id : BitVec 6) (data : List Byte) (mode : ChecksumMode) : Direction → Byte
  | .write => computeChecksum (pidOf id) data mode
  | .read => 0

/-- R88, R126: `t[0..TXLEN-1]`: break placeholder, SYNC, PID, and for WRITE the data and the checksum. -/
def outgoingBytes (id : BitVec 6) (data : List Byte) (mode : ChecksumMode) : Direction → List Byte
  | .write => [0x00#8, 0x55#8, pidOf id] ++ data ++ [computeChecksum (pidOf id) data mode]
  | .read => [0x00#8, 0x55#8, pidOf id]

end Sys2Proof.Machine
end

