-- ==== Sys2Proof/Machine/Transport.lean ====
section
/-! DEFINITION. Machine/Transport.lean: the transport port (R60 to R67), and what the calls made say of the transport's
rate and of the bytes it was given (R41, R61, R65). `flush()` is never called and is no operation here (R66). -/

namespace Sys2Proof.Machine

/-- The next call is made after the calls before it (R67). -/
def State.call (s : State) (c : Call) : State := { s with calls := s.calls ++ [c] }

/-- R64: `RxDiscard()` discards every buffered received byte. -/
def rxDiscard (s : State) : State := { s with rx := [] }.call .rxDiscard

/-- R65: `SetBaud(r)`. -/
def setBaud (rate : BitVec 24) (s : State) : State := s.call (.setBaud rate)

/-- R61: `TxWrite(b0, ..., bk)`; a run in which the transport cannot accept the bytes is refused (log 4). -/
def txWrite (bytes : List Byte) (s : State) : Host.Outcome State Fault Refusal :=
  if bytes.length ≤ s.txRoom then
    .next ({ s with txRoom := s.txRoom - bytes.length }.call (.txWrite bytes))
  else .refused .transportFull

/-- R62: `RxAvail()`, whose answer is `s.rx.length`; it only leaves its trace in `calls`. -/
def rxAvail (s : State) : State := s.call (.rxAvail s.rx.length)

/-- R63: `RxRead(k)` removes the `k` oldest received bytes; its answer is `s.rx.take k`. -/
def rxRead (k : Nat) (s : State) : State := { s with rx := s.rx.drop k }.call (.rxRead (s.rx.take k))

/-- R41, R65: the transport's bit rate after the calls, if the engine has set one: that of the last `SetBaud`. -/
def rateAfter : List Call → Option (BitVec 24) :=
  List.foldl (fun r c => match c with
    | .setBaud rate => some rate
    | .rxDiscard => r
    | .txWrite _ => r
    | .rxAvail _ => r
    | .rxRead _ => r) none

/-- R61, R65: the bytes the engine has queued, in queue order, each with the rate in force when it was written. DESIGN
CHOICE (log 19): a byte written before a later `SetBaud` and not yet sent by then keeps its rate, where R61 speaks of the
rate when the byte is sent and R65 and R204(c) of the bytes written after the call. No step reads this list. -/
def queuedBytes (calls : List Call) : List (Byte × Option (BitVec 24)) :=
  (calls.foldl (fun (acc : Option (BitVec 24) × List (Byte × Option (BitVec 24))) c => match c with
    | .setBaud rate => (some rate, acc.2)
    | .txWrite bytes => (acc.1, acc.2 ++ bytes.map fun b => (b, acc.1))
    | .rxDiscard => acc
    | .rxAvail _ => acc
    | .rxRead _ => acc) (none, [])).2

end Sys2Proof.Machine
end

