-- ==== Sys2Proof/Machine/Ops.lean ====
section
/-! DEFINITION. Machine/Ops.lean: the operations the commands share: elapsed time (R11), the move to DONE that stands in
for taking an exception and the clearing that stands in for the return from it (R182, R186, R187), misuse (R128), the
latch (R126, R156), power-on reset (R200) and the three step functions (R127, R129, R133). -/

namespace Sys2Proof.Machine

/-- R11: `elapsed(ref)` is `(now - ref) mod 2^32`. -/
def State.elapsed (s : State) (ref : Word) : Word := s.now - ref

/-- R209 and R210 say "in flight" of these two states. -/
def State.inFlight (s : State) : Bool := decide (s.phase = .brk) || decide (s.phase = .body)

/-- A second operation on the state the first one leaves; a fault or a refusal ends both. -/
def andThen (o : Host.Outcome State Fault Refusal) (f : State → Host.Outcome State Fault Refusal) :
    Host.Outcome State Fault Refusal :=
  match o with
  | .next s => f s
  | .fault r => .fault r
  | .refused r => .refused r

/-- R182, R186: every error ORs its flag in and moves to DONE; it saves nothing and writes nothing else. -/
def errorToDone (f : BitVec 4) (s : State) : State := { s.flag f with phase := .done }

/-- R128: Misuse. -/
def misuse (s : State) : State := { errorToDone errorState s with loaded := false }

/-- R187: leaving DONE. What RESET (R154) and an accepted LOAD (R156) both reset: STATE, ERR, the timestamps, TTO,
RXBUF and RXDONE. -/
def clearTransaction (s : State) : State :=
  { s with
    phase := .idle
    err := 0
    rxdone := false
    tto := 0
    tstartBrk := 0
    tstartTx := 0
    rxbuf := padTo 12 [] }

/-- R126: FRAME. -/
def assembleFrame (p : Params) (data : List Byte) (id : BitVec 6) (len : BitVec 4) (mode : ChecksumMode)
    (dir : Direction) : Frame where
  pid   := pidOf id
  len   := len
  mode  := mode
  dir   := dir
  chk   := outgoingChecksum id data mode dir
  rxlen := rxlenOf p len dir
  txlen := txlenOf len dir

/-- R38, R126: the data LOAD copies, `d[0..LEN-1]`. -/
def State.payload (s : State) (len : BitVec 4) : List Byte := slice s.txdata 0 len.toNat

/-- R126, R156: an accepted LOAD. -/
def latch (id : BitVec 6) (len : BitVec 4) (mode : ChecksumMode) (dir : Direction) (s : State) : State :=
  { clearTransaction s with
    frame := assembleFrame s.params (s.payload len) id len mode dir
    txframe := padTo 12 (outgoingBytes id (s.payload len) mode dir)
    loaded := true
    accept := true }

/-- R156: LOAD(w), which REQUEST also performs (R152): the length check, then the busy check, then the latch. -/
def loadTransaction (id : BitVec 6) (len : BitVec 4) (mode : ChecksumMode) (dir : Direction) (s : State) : State :=
  if legalLen len then
    if s.inFlight then misuse { s with accept := false }
    else latch id len mode dir s
  else { s with accept := false }

/-- R43, R200: power-on reset. It makes no transport call, and the world outside the engine goes on. -/
def powerOn (s : State) : State :=
  { State.resetWith s.params with
    now := s.now
    rx := s.rx
    txRoom := s.txRoom
    pending := s.pending
    calls := s.calls
    reads := s.reads }

/-- R127: what StartBreak writes once the transport has the break byte. -/
def breakStarted (s : State) : State :=
  { s with
    tstartBrk := s.now
    tstartTx := s.now
    tto := ttoOf s.params s.frame.len s.tbyte
    loaded := false
    phase := .brk }

/-- R127: StartBreak, IDLE → BREAK. -/
def startBreak (s : State) : Host.Outcome State Fault Refusal :=
  if s.phase = .idle ∧ s.loaded = true then
    andThen (txWrite [byteAt s.txframe 0] (setBaud (breakRate s.baud) (rxDiscard s))) fun s1 => .next (breakStarted s1)
  else .next (misuse s)

/-- R129: `t[1], ..., t[TXLEN-1]`. -/
def State.bodyBytes (s : State) : List Byte := slice s.txframe 1 (s.frame.txlen.toNat - 1)

/-- R131: the transaction has timed out when `elapsed(TSTART_TX) > TTO`. -/
def State.timedOut (s : State) : Bool := decide (s.tto.toNat < (s.elapsed s.tstartTx).toNat)

/-- R122: the break is complete when `elapsed(TSTART_BRK) > TBRK`. -/
def State.breakComplete (s : State) : Bool := decide (s.tbrk.toNat < (s.elapsed s.tstartBrk).toNat)

/-- R129: StepBody, BREAK → BODY; the threshold is tested before the deadline. -/
def stepBodyFn (s : State) : Host.Outcome State Fault Refusal :=
  if s.phase = .brk then
    if s.breakComplete then
      andThen (txWrite s.bodyBytes (setBaud s.baud s)) fun s1 => .next { s1 with phase := .body }
    else if s.timedOut then .next (errorToDone errorTimeout s)
    else .next s
  else .next (misuse s)

/-- R133: what StepRecv does once RXLEN bytes are available: `r[0..RXLEN-1] <- RxRead(RXLEN)` and validation. -/
def receive (s : State) : State :=
  let got := s.rx.take s.frame.rxlen.toNat
  let s1 := { rxRead s.frame.rxlen.toNat s with rxbuf := overlay s.rxbuf 0 got, rxdone := true }
  errorToDone (validateResponse s1.params s1.frame s1.txframe s1.rxbuf) s1

/-- R133: StepRecv, BODY → DONE; the byte count is tested before the deadline. -/
def stepRecvFn (s : State) : Host.Outcome State Fault Refusal :=
  if s.phase = .body then
    if s.frame.rxlen.toNat ≤ s.rx.length then .next (receive (rxAvail s))
    else if s.timedOut then .next (errorToDone errorTimeout (rxAvail s))
    else .next (rxAvail s)
  else .next (misuse s)

end Sys2Proof.Machine
end

