-- ==== Sys2Proof/Machine/Control.lean ====
section
/-! DEFINITION. Machine/Control.lean: NOP, RESET, CONFIG and the reserved commands (R151, R154, R155, R160). -/

namespace Sys2Proof.Machine

/-- R151: NOP, "nothing". -/
def execNop (s : State) : Host.Outcome State Fault Refusal := .next s

/-- R154: RESET. BAUD, TBYTE, TBRK, TXDATA and PARAMS are unchanged, and there is no transport call. -/
def execReset (s : State) : Host.Outcome State Fault Refusal :=
  .next { clearTransaction s with loaded := false, accept := false, frame := Frame.zero, txframe := padTo 12 [] }

/-- R121, R122, R155: BAUD and the durations it fixes. -/
def configure (baud : BitVec 24) (s : State) : State :=
  { s with baud := baud, tbyte := tbyteOf baud, tbrk := tbrkOf s.params (tbyteOf baud) }

/-- R155: CONFIG, ignored when the rate is illegal (R86(b)) or a transaction is in flight (R210). -/
def execConfig (baud : BitVec 24) (s : State) : Host.Outcome State Fault Refusal :=
  if legalBaud baud then
    if s.inFlight then .next s else .next (configure baud s)
  else .next s

/-- R85, R160: a reserved command changes no state and makes no transport call. -/
def reserved (s : State) : State := s

/-- R160: OP 0x9. -/
def execReserved9 (s : State) : Host.Outcome State Fault Refusal := .next (reserved s)
/-- R160: OP 0xA. -/
def execReservedA (s : State) : Host.Outcome State Fault Refusal := .next (reserved s)
/-- R160: OP 0xB. -/
def execReservedB (s : State) : Host.Outcome State Fault Refusal := .next (reserved s)
/-- R160: OP 0xC. -/
def execReservedC (s : State) : Host.Outcome State Fault Refusal := .next (reserved s)
/-- R160: OP 0xD. -/
def execReservedD (s : State) : Host.Outcome State Fault Refusal := .next (reserved s)
/-- R160: OP 0xE. -/
def execReservedE (s : State) : Host.Outcome State Fault Refusal := .next (reserved s)
/-- R160: OP 0xF. -/
def execReservedF (s : State) : Host.Outcome State Fault Refusal := .next (reserved s)

end Sys2Proof.Machine
end

