-- ==== Sys2Proof/Machine/Transaction.lean ====
section
/-! DEFINITION. Machine/Transaction.lean: REQUEST, POLL, LOAD and the three step commands (R152, R153, R156 to R159). -/

namespace Sys2Proof.Machine

/-- R156: LOAD. -/
def execLoad (id : BitVec 6) (len : BitVec 4) (mode : ChecksumMode) (dir : Direction) (s : State) :
    Host.Outcome State Fault Refusal :=
  .next (loadTransaction id len mode dir s)

/-- R152: REQUEST is LOAD, and StartBreak when ACCEPT = 1. -/
def execRequest (id : BitVec 6) (len : BitVec 4) (mode : ChecksumMode) (dir : Direction) (s : State) :
    Host.Outcome State Fault Refusal :=
  let s1 := loadTransaction id len mode dir s
  if s1.accept then startBreak s1 else .next s1

/-- R157: STEP_BREAK. -/
def execStepBreak (s : State) : Host.Outcome State Fault Refusal := startBreak s

/-- R158: STEP_BODY. -/
def execStepBody (s : State) : Host.Outcome State Fault Refusal := stepBodyFn s

/-- R159: STEP_RECV. -/
def execStepRecv (s : State) : Host.Outcome State Fault Refusal := stepRecvFn s

/-- R153: POLL performs the step enabled in the current state. -/
def execPoll (s : State) : Host.Outcome State Fault Refusal :=
  match s.phase with
  | .idle => if s.loaded then startBreak s else .next s
  | .brk => stepBodyFn s
  | .body => stepRecvFn s
  | .done => .next s

end Sys2Proof.Machine
end

