-- ==== Sys2Proof/Machine/Registers.lean ====
section
/-! DEFINITION. Machine/Registers.lean: the register map (R52 to R55) and what each register reads (R27 to R40). -/

namespace Sys2Proof.Machine

/-- R52: the registers, in the order of their offsets. -/
inductive Reg where
  | cmd | status | baud | tbyte | tbrk | tto | tstartBrk | tstartTx
  | txdata0 | txdata1 | frame | txframe0 | txframe1 | txframe2 | rxbuf0 | rxbuf1 | rxbuf2 | params
  deriving DecidableEq, Repr

/-- R52: the register map. -/
def Reg.offset : Reg → Nat
  | .cmd => 0x00
  | .status => 0x04
  | .baud => 0x08
  | .tbyte => 0x0C
  | .tbrk => 0x10
  | .tto => 0x14
  | .tstartBrk => 0x18
  | .tstartTx => 0x1C
  | .txdata0 => 0x20
  | .txdata1 => 0x24
  | .frame => 0x28
  | .txframe0 => 0x2C
  | .txframe1 => 0x30
  | .txframe2 => 0x34
  | .rxbuf0 => 0x38
  | .rxbuf1 => 0x3C
  | .rxbuf2 => 0x40
  | .params => 0x44

/-- R52. -/
def Reg.all : List Reg :=
  [.cmd, .status, .baud, .tbyte, .tbrk, .tto, .tstartBrk, .tstartTx, .txdata0, .txdata1, .frame, .txframe0, .txframe1,
    .txframe2, .rxbuf0, .rxbuf1, .rxbuf2, .params]

/-- R52: the register at an offset; the reserved offsets hold none (R53). -/
def regAt (off : Nat) : Option Reg := Reg.all.find? fun r => r.offset == off

/-- R23: the encoding of STATE. -/
def Phase.toBits : Phase → BitVec 2
  | .idle => 0
  | .brk => 1
  | .body => 2
  | .done => 3

/-- R27: STATUS[2] is 1 exactly when STATE = DONE. -/
def State.valid (s : State) : Bool := decide (s.phase = .done)

/-- R27: STATUS. -/
def State.status (s : State) : Word :=
  0#22 ++ BitVec.ofBool s.rxdone ++ BitVec.ofBool s.loaded ++ s.err ++ BitVec.ofBool s.accept ++
    BitVec.ofBool s.valid ++ s.phase.toBits

/-- R36: MODE 0 is classic, 1 enhanced. -/
def modeBit : ChecksumMode → BitVec 1
  | .classic => 0#1
  | .enhanced => 1#1

/-- R36: DIR 0 is WRITE, 1 READ. -/
def dirBit : Direction → BitVec 1
  | .write => 0#1
  | .read => 1#1

/-- R36, R126: FRAME, `{TXLEN, RXLEN, CHK, 00, DIR, MODE, LEN, PID}`. -/
def Frame.toWord (f : Frame) : Word :=
  f.txlen ++ f.rxlen ++ f.chk ++ 0#2 ++ dirBit f.dir ++ modeBit f.mode ++ f.len ++ f.pid

/-- R35: WRITE_ECHO_SCOPE 0 is FRAME, 1 HEADER. -/
def scopeBit : EchoScope → BitVec 1
  | .frame => 0#1
  | .header => 1#1

/-- R35: PARAMS. -/
def paramsWord (p : Params) : Word :=
  0#4 ++ BitVec.ofNat 4 maxLen ++ 0#2 ++ BitVec.ofBool p.checkBreakEcho ++ scopeBit p.writeEchoScope ++
    BitVec.ofNat 4 bitsPerByte ++ p.timeoutMult ++ p.breakMult

/-- R27 to R40: what a register reads. CMD has no storage and reads 0 (R28, R54). -/
def State.readReg (s : State) : Reg → Word
  | .cmd => 0
  | .status => s.status
  | .baud => 0#8 ++ s.baud
  | .tbyte => s.tbyte
  | .tbrk => s.tbrk
  | .tto => s.tto
  | .tstartBrk => s.tstartBrk
  | .tstartTx => s.tstartTx
  | .txdata0 => bufferWord s.txdata 0
  | .txdata1 => bufferWord s.txdata 1
  | .frame => s.frame.toWord
  | .txframe0 => bufferWord s.txframe 0
  | .txframe1 => bufferWord s.txframe 1
  | .txframe2 => bufferWord s.txframe 2
  | .rxbuf0 => bufferWord s.rxbuf 0
  | .rxbuf1 => bufferWord s.rxbuf 1
  | .rxbuf2 => bufferWord s.rxbuf 2
  | .params => paramsWord s.params

/-- R51, R53: `MemRead(off, 4)`; a reserved offset reads 0. -/
def State.readOffset (s : State) (off : Nat) : Word :=
  match regAt off with
  | some r => s.readReg r
  | none => 0

/-- R54, R55: `MemWrite(off, 4, v)` at an offset other than CMD's: TXDATA stores all 4 bytes, and every other register
is read-only. A write to CMD stores nothing; it executes a command (R150). -/
def State.storeReg (s : State) (v : Word) : Reg → State
  | .txdata0 => { s with txdata := storeBufferWord s.txdata 0 v }
  | .txdata1 => { s with txdata := storeBufferWord s.txdata 1 v }
  | .cmd => s
  | .status => s
  | .baud => s
  | .tbyte => s
  | .tbrk => s
  | .tto => s
  | .tstartBrk => s
  | .tstartTx => s
  | .frame => s
  | .txframe0 => s
  | .txframe1 => s
  | .txframe2 => s
  | .rxbuf0 => s
  | .rxbuf1 => s
  | .rxbuf2 => s
  | .params => s

end Sys2Proof.Machine
end

