-- ==== Sys2Proof/Machine/HostAccess.lean ====
section
/-! DEFINITION. Machine/HostAccess.lean: host accesses to the register space (R50 to R57, R150) and power-on reset. -/

namespace Sys2Proof.Machine

/-- What an access finds: the clock advanced and the transport as it is by then (R37, R76; log 2 to log 4). -/
def arrive (e : Event) (rest : List Event) (s : State) : State :=
  { s with pending := rest, now := s.now + BitVec.ofNat 32 e.dt, rx := e.rx, txRoom := e.txRoom }

/-- R50, R74: the offset an address has in the register space at BASE. -/
def offsetOf (base addr : Nat) : Option Nat :=
  if base ≤ addr ∧ addr < base + blockBytes then some (addr - base) else none

/-- R57: "Every host access must be 32 bits wide and word-aligned". -/
def supported (off width : Nat) : Bool := decide (width = 4) && decide (off % 4 = 0)

/-- R50, R57: an access reaches a register, or the machine stops by name (log 9). -/
def atOffset (addr width : Nat) (s : State) (f : Nat → Host.Outcome State Fault Refusal) :
    Host.Outcome State Fault Refusal :=
  match offsetOf s.params.base addr with
  | none => .fault .noSuchRegister
  | some off => if supported off width then f off else .refused .unsupportedAccess

/-- R51, R58: `MemRead(off, 4)`; a read changes nothing but the record of what was read. -/
def hostRead (off : Nat) (s : State) : Host.Outcome State Fault Refusal :=
  .next { s with reads := s.reads ++ [(off, s.readOffset off)] }

/-- R51, R55, R150: `MemWrite(off, 4, v)`; a write to CMD executes exactly one command. -/
def hostWrite (off : Nat) (v : Word) (s : State) : Host.Outcome State Fault Refusal :=
  match regAt off with
  | some .cmd => exec (decodeWord v) s
  | some r => .next (s.storeReg v r)
  | none => .next s

/-- One access, completely (R59, R201). -/
def perform (a : Access) (s : State) : Host.Outcome State Fault Refusal :=
  match a with
  | .powerOnReset => .next (powerOn s)
  | .read addr width => atOffset addr width s fun off => hostRead off s
  | .write addr width v => atOffset addr width s fun off => hostWrite off v s

/-- R28, R52: the host's write of a word to CMD, at the clock and with the transport as they stand. -/
def commandWrite (w : Word) (s : State) : Event where
  dt     := 0
  rx     := s.rx
  txRoom := s.txRoom
  access := .write (s.params.base + Reg.cmd.offset) 4 w

end Sys2Proof.Machine
end

