-- ==== Sys2Proof/Machine/Step.lean ====
section
/-! DEFINITION. Machine/Step.lean: one step is the next host access (R12, R68). -/

namespace Sys2Proof.Machine

/-- The next pending access is performed. With none, the engine "does nothing between commands" (R195, R202; log 1). -/
def step (s : State) : Host.Outcome State Fault Refusal :=
  match s.pending with
  | [] => .next s
  | e :: rest => perform e.access (arrive e rest s)

/-- The command word is the host's next access (log 1): bits above `nbits` are zero. -/
def State.withFetchWord (s : State) (nbits w : Nat) : State :=
  { s with pending := commandWrite (BitVec.ofNat 32 (w % 2 ^ nbits)) s :: s.pending }

end Sys2Proof.Machine
end

