-- ==== Sys2Proof/Machine/Assembler.lean ====
section
/-! DEFINITION. Machine/Assembler.lean: the spec's assembler syntax and pseudo-instructions (R94, R95). It is a host
tool: a line stands for host accesses, and no step reads it (log 15). -/

namespace Sys2Proof.Machine

/-- R94, R95: a line of the assembler. -/
inductive AsmLine where
  | cmd (i : Instr)
  | wr (off : Nat) (value : Word)
  | rd (off : Nat)
  | setData (bytes : Vector Byte 8)
  | waitDone
  | writeFrame (id : BitVec 6) (mode : ChecksumMode) (bytes : List Byte)
  | readFrame (id : BitVec 6) (len : BitVec 4) (mode : ChecksumMode)
  | result
  deriving DecidableEq, Repr

/-- R94: `WR off, value` is `MemWrite(off, 4, value)`. -/
def wrAt (base off : Nat) (value : Word) : Access := .write (base + off) 4 value

/-- R94: `RD off` is `MemRead(off, 4)`. -/
def rdAt (base off : Nat) : Access := .read (base + off) 4

/-- R94: "Each command mnemonic assembles to `WR CMD, word`". -/
def cmdAt (base : Nat) (i : Instr) : Access := wrAt base Reg.cmd.offset (encode i)

/-- R95: `SETDATA`. -/
def setDataAccesses (base : Nat) (bytes : Vector Byte 8) : List Access :=
  [wrAt base Reg.txdata0.offset (bufferWord bytes 0), wrAt base Reg.txdata1.offset (bufferWord bytes 1)]

/-- R95: `WAIT_DONE`, the loop `L: POLL ; RD STATUS ; if STATUS[2] = 0 goto L`, when the host goes round `turns` times.
The host leaves the loop at the first read in which STATUS[2] = 1. -/
def waitDoneAccesses (base : Nat) : Nat → List Access
  | 0 => []
  | turns + 1 => cmdAt base .poll :: rdAt base Reg.status.offset :: waitDoneAccesses base turns

/-- R95: the reads of RXBUF0, RXBUF1 and RXBUF2. -/
def readRxbuf (base : Nat) : List Access :=
  [rdAt base Reg.rxbuf0.offset, rdAt base Reg.rxbuf1.offset, rdAt base Reg.rxbuf2.offset]

/-- R94, R95: the host accesses of a line, when its WAIT_DONE loop, if it has one, goes round `turns` times. -/
def AsmLine.accesses (base turns : Nat) : AsmLine → List Access
  | .cmd i => [cmdAt base i]
  | .wr off value => [wrAt base off value]
  | .rd off => [rdAt base off]
  | .setData bytes => setDataAccesses base bytes
  | .waitDone => waitDoneAccesses base turns
  | .writeFrame id mode bytes =>
    setDataAccesses base (padTo 8 bytes) ++
      cmdAt base (.request id (BitVec.ofNat 4 bytes.length) mode .write) :: waitDoneAccesses base turns
  | .readFrame id len mode =>
    cmdAt base (.request id len mode .read) :: waitDoneAccesses base turns ++ readRxbuf base
  | .result => rdAt base Reg.status.offset :: readRxbuf base

/-- Everything up to the first `;` (R94: "`;` starts a comment"). -/
def withoutComment : List Char → List Char
  | [] => []
  | c :: cs => if c = ';' then [] else c :: withoutComment cs

/-- A line without the blanks at its two ends. -/
def trimBlanks (cs : List Char) : List Char :=
  let blank := fun c => c == ' ' || c == '\t'
  ((cs.dropWhile blank).reverse.dropWhile blank).reverse

/-- The pieces of a text between its commas. -/
def splitCommas : List Char → List (List Char)
  | [] => [[]]
  | c :: cs =>
    match splitCommas cs with
    | [] => [[c]]
    | p :: ps => if c = ',' then [] :: p :: ps else (c :: p) :: ps

/-- The value of a digit. -/
def digit (c : Char) : Option Nat :=
  if '0' ≤ c ∧ c ≤ '9' then some (c.toNat - '0'.toNat)
  else if 'a' ≤ c ∧ c ≤ 'f' then some (c.toNat - 'a'.toNat + 10)
  else if 'A' ≤ c ∧ c ≤ 'F' then some (c.toNat - 'A'.toNat + 10)
  else none

/-- A run of digits in a radix, after the value read so far. -/
def digits (radix : Nat) : Nat → List Char → Option Nat
  | n, [] => some n
  | n, c :: cs => (digit c).bind fun d => if d < radix then digits radix (n * radix + d) cs else none

/-- R94: "Numbers are decimal or `0x` hexadecimal". -/
def parseNumber : List Char → Option Nat
  | '0' :: 'x' :: c :: cs => digits 16 0 (c :: cs)
  | c :: cs => digits 10 0 (c :: cs)
  | [] => none

/-- A number below a bound. -/
def parseBelow (bound : Nat) (cs : List Char) : Option Nat :=
  (parseNumber cs).bind fun n => if n < bound then some n else none

/-- R94: `mode` is `CLASSIC` (0) or `ENHANCED` (1). -/
def parseMode (cs : List Char) : Option ChecksumMode :=
  if cs = "CLASSIC".toList then some .classic else if cs = "ENHANCED".toList then some .enhanced else none

/-- R94: `dir` is `WRITE` (0) or `READ` (1). -/
def parseDir (cs : List Char) : Option Direction :=
  if cs = "WRITE".toList then some .write else if cs = "READ".toList then some .read else none

/-- R52: a register's name. -/
def Reg.name : Reg → String
  | .cmd => "CMD"
  | .status => "STATUS"
  | .baud => "BAUD"
  | .tbyte => "TBYTE"
  | .tbrk => "TBRK"
  | .tto => "TTO"
  | .tstartBrk => "TSTART_BRK"
  | .tstartTx => "TSTART_TX"
  | .txdata0 => "TXDATA0"
  | .txdata1 => "TXDATA1"
  | .frame => "FRAME"
  | .txframe0 => "TXFRAME0"
  | .txframe1 => "TXFRAME1"
  | .txframe2 => "TXFRAME2"
  | .rxbuf0 => "RXBUF0"
  | .rxbuf1 => "RXBUF1"
  | .rxbuf2 => "RXBUF2"
  | .params => "PARAMS"

/-- R94: "`off` is an offset from rule R52 or its register name". -/
def parseOffset (cs : List Char) : Option Nat :=
  match Reg.all.find? fun r => r.name.toList == cs with
  | some r => some r.offset
  | none => parseBelow blockBytes cs

/-- A byte of SETDATA or WRITE_FRAME. -/
def parseByte (cs : List Char) : Option Byte := (parseBelow 256 cs).map (BitVec.ofNat 8)

/-- The bytes of SETDATA or WRITE_FRAME. -/
def parseBytes : List (List Char) → Option (List Byte)
  | [] => some []
  | c :: cs => (parseByte c).bind fun b => (parseBytes cs).map fun bs => b :: bs

/-- R94: `id, len, mode, dir`, with `id` 0..63 and `len` 0..8. -/
def parseTransaction (mk : BitVec 6 → BitVec 4 → ChecksumMode → Direction → Instr) :
    List (List Char) → Option AsmLine
  | [id, len, mode, dir] =>
    (parseBelow 64 id).bind fun i => (parseBelow (maxLen + 1) len).bind fun n =>
      (parseMode mode).bind fun m => (parseDir dir).map fun d =>
        .cmd (mk (BitVec.ofNat 6 i) (BitVec.ofNat 4 n) m d)
  | _ => none

/-- R94: a mnemonic without operands. -/
def plainLine (mnemonic : String) : Option AsmLine :=
  [("NOP", AsmLine.cmd .nop), ("POLL", .cmd .poll), ("RESET", .cmd .reset), ("STEP_BREAK", .cmd .stepBreak),
    ("STEP_BODY", .cmd .stepBody), ("STEP_RECV", .cmd .stepRecv), ("WAIT_DONE", .waitDone), ("RESULT", .result)].lookup
    mnemonic

/-- R94, R95: a mnemonic and its comma-separated operands. -/
def parseOperation (mnemonic : String) (args : List (List Char)) : Option AsmLine :=
  match mnemonic, args with
  | "REQUEST", _ => parseTransaction .request args
  | "LOAD", _ => parseTransaction .load args
  | "CONFIG", [baud] => (parseBelow (2 ^ 24) baud).map fun b => .cmd (.config (BitVec.ofNat 24 b))
  | "WR", [off, value] =>
    (parseOffset off).bind fun o => (parseBelow (2 ^ 32) value).map fun v => .wr o (BitVec.ofNat 32 v)
  | "RD", [off] => (parseOffset off).map .rd
  | "SETDATA", [_, _, _, _, _, _, _, _] => (parseBytes args).map fun bs => .setData (padTo 8 bs)
  | "WRITE_FRAME", id :: mode :: bytes =>
    (parseBelow 64 id).bind fun i => (parseMode mode).bind fun m => (parseBytes bytes).bind fun bs =>
      if bs.length ≤ maxLen then some (.writeFrame (BitVec.ofNat 6 i) m bs) else none
  | "READ_FRAME", [id, len, mode] =>
    (parseBelow 64 id).bind fun i => (parseBelow (maxLen + 1) len).bind fun n =>
      (parseMode mode).map fun m => .readFrame (BitVec.ofNat 6 i) (BitVec.ofNat 4 n) m
  | _, [] => plainLine mnemonic
  | _, _ => none

/-- R94: one line of assembler text; `none` where it is none of the forms of R94 and R95. -/
def parseLine (line : String) : Option AsmLine :=
  let text := trimBlanks (withoutComment line.toList)
  let mnemonic := String.ofList (text.takeWhile fun c => c != ' ')
  let operands := trimBlanks (text.dropWhile fun c => c != ' ')
  parseOperation mnemonic (if operands = [] then [] else (splitCommas operands).map trimBlanks)

end Sys2Proof.Machine
end

