-- ==== Sys2Proof/Machine/Wire.lean ====
section
/-! DEFINITION. Machine/Wire.lean: what R91 to R93, R130, R206 and R209 say of the wire and of the host's waits, as
functions of the parameters. No step reads them: the engine sees bytes only (R92, U20), and nothing here is enforced. -/

namespace Sys2Proof.Machine

/-- R92: the line levels of one byte, in order, `false` low: a start bit, 8 data bits least-significant first, a stop bit.
PRESUMED (log 11: the spec marks it general knowledge). -/
def wireLevels (b : Byte) : List Bool := false :: (List.range 8).map b.getLsbD ++ [true]

/-- The duration of one bit, in microseconds, at a bit rate. -/
def bitTime (rate : Nat) : ℚ := clockHz / rate

/-- R91: "Each byte the engine writes occupies `BITS_PER_BYTE` = 10 bit-times". -/
def byteTime (rate : Nat) : ℚ := bitsPerByte * bitTime rate

/-- R130: `Th`, one half-rate bit-time. -/
def halfRateBit (baud : BitVec 24) : ℚ := bitTime (breakRate baud).toNat

/-- R130: the BREAK, `9 * Th` low. -/
def breakLowTime (baud : BitVec 24) : ℚ := 9 * halfRateBit baud

/-- R130: the end of the break byte's stop bit, `10 * Th`. -/
def breakByteTime (baud : BitVec 24) : ℚ := byteTime (breakRate baud).toNat

/-- R206(a): `TBRK - 9 * Th`, by which the transport must have started to send the break byte. -/
def breakStartAllowance (p : Params) (baud : BitVec 24) : ℚ :=
  (tbrkOf p (tbyteOf baud)).toNat - breakLowTime baud

/-- R209: `(TXLEN + LEN + 1) * TBYTE`, the wait the spec recommends to a host that abandons a transaction. -/
def abandonWait (s : State) : Nat := (s.frame.txlen.toNat + s.frame.len.toNat + 1) * s.tbyte.toNat

end Sys2Proof.Machine
end

