-- ==== Sys2Proof/Safety.lean ====
section
/-! DEFINITION. Safety.lean: the engine's invariants (R24, R40 to R42), the moves of STATE the spec lists (R120), and the
terms the claims use. -/

namespace Sys2Proof

/-- R120: a command that can perform StepBody in BREAK. -/
abbrev Instr.stepsBody (i : Instr) : Prop := i = .stepBody ∨ i = .poll

/-- R120: a command that can perform StepRecv in BODY. -/
abbrev Instr.stepsRecv (i : Instr) : Prop := i = .stepRecv ∨ i = .poll

/-- R152, R86(a): a REQUEST of a legal length. -/
def Instr.isRequest : Instr → Bool
  | .request _ len _ _ => Machine.legalLen len
  | _ => false

/-- R156, R86(a): a LOAD of a legal length. -/
def Instr.isLoad : Instr → Bool
  | .load _ len _ _ => Machine.legalLen len
  | _ => false

namespace Machine

/-- R7, R29 to R31: legal parameters, a legal BAUD, and TBYTE and TBRK derived from it. -/
abbrev State.TimingInv (s : State) : Prop :=
  s.params.Legal ∧ legalBaud s.baud = true ∧ s.tbyte = tbyteOf s.baud ∧ s.tbrk = tbrkOf s.params s.tbyte

/-- R36: ID is FRAME[5:0]. -/
def Frame.id (f : Frame) : BitVec 6 := f.pid.extractLsb' 0 6

/-- R39: the data bytes of the outgoing buffer, `t[3..3+LEN-1]`. -/
def State.sentData (s : State) : List Byte := slice s.txframe 3 s.frame.len.toNat

/-- R88, R125, R126: FRAME and TXFRAME are those of some accepted LOAD. In particular `t[0] = 0x00` (R42.3) and the
bytes from TXLEN on are 0 (R39). -/
abbrev State.Latched (s : State) : Prop :=
  legalLen s.frame.len = true ∧ s.frame.pid = pidOf s.frame.id ∧
  s.frame.txlen = txlenOf s.frame.len s.frame.dir ∧ s.frame.rxlen = rxlenOf s.params s.frame.len s.frame.dir ∧
  s.frame.chk = outgoingChecksum s.frame.id s.sentData s.frame.mode s.frame.dir ∧
  s.txframe = padTo 12 (outgoingBytes s.frame.id s.sentData s.frame.mode s.frame.dir)

/-- R43, R154: FRAME = 0 and TXFRAME = 0. -/
abbrev State.Unlatched (s : State) : Prop := s.frame = Frame.zero ∧ s.txframe = padTo 12 []

/-- R24, R42.5: LOADED only in IDLE. A transaction that is latched or in flight has its frame; IDLE with nothing latched
has none. -/
abbrev State.FrameInv (s : State) : Prop :=
  (s.loaded = true → s.phase = .idle) ∧
  (s.loaded = true ∨ s.inFlight = true → s.Latched) ∧
  (s.phase = .idle ∧ s.loaded = false → s.Unlatched) ∧
  (s.Latched ∨ s.Unlatched)

/-- R42.6: in BREAK and BODY the timestamps and TTO are those StartBreak wrote; in IDLE they are 0 (R32 to R34). -/
abbrev State.DeadlineInv (s : State) : Prop :=
  (s.inFlight = true → s.tstartTx = s.tstartBrk ∧ s.tto = ttoOf s.params s.frame.len s.tbyte) ∧
  (s.phase = .idle → s.tto = 0 ∧ s.tstartBrk = 0 ∧ s.tstartTx = 0)

/-- R26, R182: an error has ended its transaction, so ERR is 0 before DONE. -/
abbrev State.ErrInv (s : State) : Prop := s.phase ≠ .done → s.err = 0

/-- R40: RXDONE only in DONE; RXBUF is 0 until StepRecv reads, and 0 from RXLEN on. -/
abbrev State.ReceiveInv (s : State) : Prop :=
  (s.rxdone = true → s.phase = .done) ∧ (s.rxdone = false → s.rxbuf = padTo 12 []) ∧
  ∀ k : Fin 12, s.frame.rxlen.toNat ≤ k.val → byteAt s.rxbuf k.val = 0#8

/-- The invariants of the engine's state at the end of every command (R42). -/
abbrev State.Inv (s : State) : Prop :=
  s.TimingInv ∧ s.FrameInv ∧ s.DeadlineInv ∧ s.ErrInv ∧ s.ReceiveInv

/-- R41: the transport's rate is `BAUD div 2` in BREAK and BAUD in BODY. -/
abbrev State.RateInv (s : State) : Prop :=
  (s.phase = .brk → rateAfter s.calls = some (breakRate s.baud)) ∧
  (s.phase = .body → rateAfter s.calls = some s.baud)

/-- R156, R182: the command clears ERR: RESET, or a LOAD or REQUEST that is accepted. -/
abbrev clearsErr (i : Instr) (s : State) : Prop :=
  i = .reset ∨ ((i.isLoad = true ∨ i.isRequest = true) ∧ s.inFlight = false)

/-- R127: the command performs StartBreak in IDLE with a transaction latched: STEP_BREAK or POLL. -/
abbrev startsBreak (i : Instr) (s : State) : Prop :=
  (i = .stepBreak ∨ i = .poll) ∧ s.phase = .idle ∧ s.loaded = true

/-- R133: the command performs StepRecv in BODY and finds RXLEN bytes. -/
abbrev receives (i : Instr) (s : State) : Prop :=
  i.stepsRecv ∧ s.phase = .body ∧ s.frame.rxlen.toNat ≤ s.rx.length

/-- R128: the command finds the engine outside the state it requires. -/
abbrev isMisuse (i : Instr) (s : State) : Prop :=
  (i = .stepBreak ∧ (s.phase ≠ .idle ∨ s.loaded = false)) ∨ (i = .stepBody ∧ s.phase ≠ .brk) ∨
    (i = .stepRecv ∧ s.phase ≠ .body) ∨
    ((i.isLoad = true ∨ i.isRequest = true) ∧ (s.phase = .brk ∨ s.phase = .body))

/-- R61, U2: the command makes a `TxWrite` of more bytes than the transport can take: the break byte of STEP_BREAK, POLL or
an accepted REQUEST, or the post-break bytes. -/
abbrev overfillsTransport (i : Instr) (s : State) : Prop :=
  (startsBreak i s ∧ s.txRoom = 0) ∨ (i.isRequest = true ∧ s.inFlight = false ∧ s.txRoom = 0) ∨
    (i.stepsBody ∧ s.phase = .brk ∧ s.breakComplete = true ∧ s.txRoom < s.bodyBytes.length)

/-- R120: the command `i` moves STATE from that of `s` to `to`. Staying in a state is no move. -/
def listedMove (i : Instr) (s : State) : Phase → Prop
  | .idle => match s.phase with
    | .idle => True
    | .brk => i = .reset
    | .body => i = .reset
    | .done => i = .reset ∨ i.isLoad = true
  | .brk => match s.phase with
    | .idle => i.isRequest = true ∨ ((i = .stepBreak ∨ i = .poll) ∧ s.loaded = true)
    | .brk => True
    | .body => False
    | .done => i.isRequest = true
  | .body => match s.phase with
    | .idle => False
    | .brk => i.stepsBody ∧ s.breakComplete = true
    | .body => True
    | .done => False
  | .done => match s.phase with
    | .idle => (i = .stepBreak ∧ s.loaded = false) ∨ i = .stepBody ∨ i = .stepRecv
    | .brk => (i.stepsBody ∧ s.breakComplete = false ∧ s.timedOut = true) ∨ i = .stepBreak ∨ i = .stepRecv ∨
        i.isLoad = true ∨ i.isRequest = true
    | .body => (i.stepsRecv ∧ (s.frame.rxlen.toNat ≤ s.rx.length ∨ s.timedOut = true)) ∨ i = .stepBreak ∨
        i = .stepBody ∨ i.isLoad = true ∨ i.isRequest = true
    | .done => True

/-- R37: two states that differ only in the absolute time: the clock and the timestamps may differ, but not the time
elapsed since the timestamps of a transaction in flight. -/
def SameButClock (s u : State) : Prop :=
  u = { s with now := u.now, tstartBrk := u.tstartBrk, tstartTx := u.tstartTx } ∧
  (s.inFlight = true → u.elapsed u.tstartBrk = s.elapsed s.tstartBrk ∧ u.elapsed u.tstartTx = s.elapsed s.tstartTx)

/-- R184: two states that agree on all that a new transaction may read: what no transaction writes (BAUD, TBYTE, TBRK,
TXDATA, PARAMS) and the world outside the engine. -/
def SameConfiguration (s u : State) : Prop :=
  u.baud = s.baud ∧ u.tbyte = s.tbyte ∧ u.tbrk = s.tbrk ∧ u.txdata = s.txdata ∧ u.params = s.params ∧
  u.now = s.now ∧ u.rx = s.rx ∧ u.txRoom = s.txRoom ∧ u.pending = s.pending ∧ u.calls = s.calls ∧ u.reads = s.reads

/-- A run of `n` steps, ending at the first fault or refusal. -/
def run : Nat → State → Host.Outcome State Fault Refusal
  | 0, s => .next s
  | n + 1, s => andThen (step s) (run n)

/-- R52, R57: an access to offset `off` that the register space admits. -/
abbrev admitted (off : Nat) : Prop := off < blockBytes ∧ off % 4 = 0

/-- R80, R84: the bits of a command word that are not ignored. -/
def usedBits (op : BitVec 4) : Word :=
  if op = 0x1 ∨ op = 0x5 then 0x0000FFFF else if op = 0x4 then 0xFFFFFF0F else 0x0000000F

/-- R106: the plain sum of the covered bytes. -/
def coveredSum (pid : Byte) (data : List Byte) (mode : ChecksumMode) : Nat :=
  checksumStart pid mode + (data.map BitVec.toNat).sum

end Machine

end Sys2Proof
end

