-- ==== Sys2Proof/WellFormed.lean ====
section
/-! DEFINITION. WellFormed.lean: the commands whose operands are legal (R86, R94). An ill-formed command still has a
word, is decoded and runs: R86 gives it its effect. -/

namespace Sys2Proof

open Sys2Proof.Machine

/-- R86: the operands the spec calls legal (LEN 0..8, BAUD 2..10,000,000). The other operands have no illegal value
(R82). -/
def Instr.wellFormed : Instr → Bool
  | .request _ len _ _ => legalLen len
  | .load _ len _ _ => legalLen len
  | .config baud => legalBaud baud
  | .nop => true
  | .poll => true
  | .reset => true
  | .stepBreak => true
  | .stepBody => true
  | .stepRecv => true
  | .reserved9 => true
  | .reservedA => true
  | .reservedB => true
  | .reservedC => true
  | .reservedD => true
  | .reservedE => true
  | .reservedF => true

end Sys2Proof
end

