-- ==== Sys2Proof/Certificates/Slice0/Obligations.lean ====
section
/-! DEFINITION. Certificates/Slice0/Obligations.lean: the statements for the provers. -/

open Sys2Proof Sys2Proof.Machine

/-! ### Encoding -/

/-- Decoding the word, or the bytes, of a command gives the command back, whatever bytes follow (R80 to R83, R87). -/
def Obligations.DecodeEncodeRoundTrip : Prop :=
  ∀ (i : Instr) (rest : List Byte),
    decodeWord (encode i) = i ∧ decode (encodeBytes i ++ rest) = .ok (i, rest)

/-- R84: two words that differ only in bits R80 marks ignored decode to one command; and a word is the word of its
command in all its other bits. -/
def Obligations.IgnoredBitsHaveNoEffect : Prop :=
  (∀ w w' : Word, w &&& usedBits (opOf w) = w' &&& usedBits (opOf w) → decodeWord w' = decodeWord w) ∧
  ∀ w : Word, encode (decodeWord w) = w &&& usedBits (opOf w)

/-- Words written out from R80 and spec/95 section 2.7 decode to the commands they stand for. -/
def Obligations.WordsOfTheSpecDecode : Prop :=
  decodeWord 0x00000901#32 = .request 0x10 2 .classic .write ∧
  decodeWord 0x0000E3F1#32 = .request 0x3F 8 .enhanced .read ∧
  decodeWord 0x0000C505#32 = .load 0x10 1 .enhanced .read ∧
  decodeWord 0x98968004#32 = .config 10000000 ∧
  decodeWord 0xFFFFFFF2#32 = .poll ∧
  decodeWord 0x0000000F#32 = .reservedF

/-! ### The step -/

/-- R12, R55, R150: when the next access is a 32-bit write of `w` to CMD, the step is the decoded command, run at that
access's clock sample and transport. With no access left the step changes nothing. -/
def Obligations.StepRunsTheDecodedCommand : Prop :=
  (∀ (s : State) (e : Event) (rest : List Event) (w : Word),
    s.pending = e :: rest → e.access = .write (s.params.base + 0x00) 4 w →
    step s = exec (decodeWord w)
      { s with pending := rest, now := s.now + BitVec.ofNat 32 e.dt, rx := e.rx, txRoom := e.txRoom }) ∧
  (∀ s : State, s.pending = [] → step s = .next s)

/-- R58, R52: a read in the register map returns the value of the register that R52 places at the offset, 0 at CMD and at a reserved offset, and changes nothing
(`reads` is the model's record of it, log 6), so a second read returns the same. -/
def Obligations.ReadsReturnTheRegisterAndChangeNothing : Prop :=
  ∀ (s : State) (e : Event) (rest : List Event) (off : Nat),
    s.pending = e :: rest → e.access = .read (s.params.base + off) 4 → admitted off →
    ∃ v : Word,
      step s = .next { s with
        pending := rest, now := s.now + BitVec.ofNat 32 e.dt, rx := e.rx, txRoom := e.txRoom,
        reads := s.reads ++ [(off, v)] } ∧
      (∀ p ∈ [(0x00, Reg.cmd), (0x04, .status), (0x08, .baud), (0x0C, .tbyte), (0x10, .tbrk), (0x14, .tto),
          (0x18, .tstartBrk), (0x1C, .tstartTx), (0x20, .txdata0), (0x24, .txdata1), (0x28, .frame),
          (0x2C, .txframe0), (0x30, .txframe1), (0x34, .txframe2), (0x38, .rxbuf0), (0x3C, .rxbuf1),
          (0x40, .rxbuf2), (0x44, .params)], off = p.1 → v = s.readReg p.2) ∧
      (off = 0x00 ∨ 0x48 ≤ off → v = 0)

/-- R53, R54: a write to a read-only register or to a reserved offset changes no state; a read of CMD or of a reserved
offset returns 0 (`reads` is the model's record of it, log 6). -/
def Obligations.ReadOnlyAndReservedIgnoreWrites : Prop :=
  (∀ (s : State) (e : Event) (rest : List Event) (off : Nat) (w : Word),
    s.pending = e :: rest → e.access = .write (s.params.base + off) 4 w → admitted off →
    off ≠ 0x00 → off ≠ 0x20 → off ≠ 0x24 →
    step s = .next { s with
      pending := rest, now := s.now + BitVec.ofNat 32 e.dt, rx := e.rx, txRoom := e.txRoom }) ∧
  (∀ (s : State) (e : Event) (rest : List Event) (off : Nat),
    s.pending = e :: rest → e.access = .read (s.params.base + off) 4 → admitted off → off = 0x00 ∨ 0x48 ≤ off →
    step s = .next { s with
      pending := rest, now := s.now + BitVec.ofNat 32 e.dt, rx := e.rx, txRoom := e.txRoom,
      reads := s.reads ++ [(off, 0)] })

/-- R55, R38, R56: a write to TXDATA0 or TXDATA1 stores its four bytes, the least significant first, keeps the other
four, and changes nothing else; the register then reads what was written. -/
def Obligations.TxdataWritesStoreFourBytes : Prop :=
  ∀ (s : State) (e : Event) (rest : List Event) (j : Fin 2) (w : Word),
    s.pending = e :: rest → e.access = .write (s.params.base + (0x20 + 4 * j.val)) 4 w →
    ∃ t : State,
      step s = .next t ∧
      t = { s with
        pending := rest, now := s.now + BitVec.ofNat 32 e.dt, rx := e.rx, txRoom := e.txRoom, txdata := t.txdata } ∧
      (∀ k : Fin 8, byteAt t.txdata k.val =
        if k.val / 4 = j.val then w.extractLsb' (8 * (k.val % 4)) 8 else byteAt s.txdata k.val) ∧
      t.readOffset (0x20 + 4 * j.val) = w

/-- R57 and R50 (log 9): an access in the register space that is not 32 bits wide, or not word-aligned, is refused; an
access outside the register space faults. -/
def Obligations.OtherAccessesStop : Prop :=
  (∀ (s : State) (e : Event) (rest : List Event) (off width : Nat) (w : Word),
    s.pending = e :: rest → off < 256 → (width ≠ 4 ∨ off % 4 ≠ 0) →
    (e.access = .read (s.params.base + off) width ∨ e.access = .write (s.params.base + off) width w) →
    step s = .refused .unsupportedAccess) ∧
  (∀ (s : State) (e : Event) (rest : List Event) (addr width : Nat) (w : Word),
    s.pending = e :: rest → (addr < s.params.base ∨ s.params.base + 256 ≤ addr) →
    (e.access = .read addr width ∨ e.access = .write addr width w) →
    step s = .fault .noSuchRegister)

/-! ### Registers -/

/-- R27: the fields of STATUS. -/
def Obligations.StatusFields : Prop :=
  ∀ s : State,
    (s.readReg .status).extractLsb' 0 2 =
      (match s.phase with | .idle => 0#2 | .brk => 1#2 | .body => 2#2 | .done => 3#2) ∧
    (s.readReg .status).getLsbD 2 = decide (s.phase = .done) ∧
    (s.readReg .status).getLsbD 3 = s.accept ∧
    (s.readReg .status).extractLsb' 4 4 = s.err ∧
    (s.readReg .status).getLsbD 8 = s.loaded ∧
    (s.readReg .status).getLsbD 9 = s.rxdone ∧
    (s.readReg .status).extractLsb' 10 22 = 0

/-- R36 and R35: the fields of FRAME and of PARAMS. -/
def Obligations.FrameAndParamsFields : Prop :=
  ∀ s : State,
    (s.readReg .frame).extractLsb' 0 8 = s.frame.pid ∧
    (s.readReg .frame).extractLsb' 8 4 = s.frame.len ∧
    (s.readReg .frame).getLsbD 12 = decide (s.frame.mode = .enhanced) ∧
    (s.readReg .frame).getLsbD 13 = decide (s.frame.dir = .read) ∧
    (s.readReg .frame).extractLsb' 14 2 = 0 ∧
    (s.readReg .frame).extractLsb' 16 8 = s.frame.chk ∧
    (s.readReg .frame).extractLsb' 24 4 = s.frame.rxlen ∧
    (s.readReg .frame).extractLsb' 28 4 = s.frame.txlen ∧
    (s.readReg .params).extractLsb' 0 8 = s.params.breakMult ∧
    (s.readReg .params).extractLsb' 8 8 = s.params.timeoutMult ∧
    (s.readReg .params).extractLsb' 16 4 = 10 ∧
    (s.readReg .params).getLsbD 20 = decide (s.params.writeEchoScope = .header) ∧
    (s.readReg .params).getLsbD 21 = s.params.checkBreakEcho ∧
    (s.readReg .params).extractLsb' 22 2 = 0 ∧
    (s.readReg .params).extractLsb' 24 4 = 8 ∧
    (s.readReg .params).extractLsb' 28 4 = 0

/-- R29 to R34, R38 to R40, R56: what the other registers read in every state: BAUD with bits [31:24] 0, the durations and
timestamps, and byte `4j + k` of TXDATA, TXFRAME and RXBUF in word `j` at bits `[8k+7 : 8k]`. -/
def Obligations.OtherRegistersReadTheirFields : Prop :=
  ∀ s : State,
    (s.readReg .baud).extractLsb' 0 24 = s.baud ∧ (s.readReg .baud).extractLsb' 24 8 = 0 ∧
    s.readReg .tbyte = s.tbyte ∧ s.readReg .tbrk = s.tbrk ∧ s.readReg .tto = s.tto ∧
    s.readReg .tstartBrk = s.tstartBrk ∧ s.readReg .tstartTx = s.tstartTx ∧ s.readReg .cmd = 0 ∧
    (∀ (j : Fin 2) (k : Fin 4), (s.readReg (#v[Reg.txdata0, .txdata1][j])).extractLsb' (8 * k.val) 8 =
      byteAt s.txdata (4 * j.val + k.val)) ∧
    (∀ (j : Fin 3) (k : Fin 4),
      (s.readReg (#v[Reg.txframe0, .txframe1, .txframe2][j])).extractLsb' (8 * k.val) 8 =
        byteAt s.txframe (4 * j.val + k.val)) ∧
    ∀ (j : Fin 3) (k : Fin 4), (s.readReg (#v[Reg.rxbuf0, .rxbuf1, .rxbuf2][j])).extractLsb' (8 * k.val) 8 =
      byteAt s.rxbuf (4 * j.val + k.val)

/-! ### Reset -/

/-- R43: power-on reset gives every piece of engine state its value, with the parameters the block was built with, and
makes no transport call (R200). It can come at any time. -/
def Obligations.PowerOnResetValues : Prop :=
  ∀ (s : State) (e : Event) (rest : List Event),
    s.pending = e :: rest → e.access = .powerOnReset →
    step s = .next
      { phase := .idle, loaded := false, rxdone := false, accept := false, err := 0,
        baud := s.params.baudReset,
        tbyte := BitVec.ofNat 32 (10 * 1000000 / s.params.baudReset.toNat),
        tbrk := BitVec.ofNat 32 (s.params.breakMult.toNat *
          (BitVec.ofNat 32 (10 * 1000000 / s.params.baudReset.toNat)).toNat),
        tto := 0, tstartBrk := 0, tstartTx := 0,
        txdata := Vector.replicate 8 0, frame := ⟨0, 0, .classic, .write, 0, 0, 0⟩,
        txframe := Vector.replicate 12 0, rxbuf := Vector.replicate 12 0, params := s.params,
        now := s.now + BitVec.ofNat 32 e.dt, rx := e.rx, txRoom := e.txRoom,
        pending := rest, calls := s.calls, reads := s.reads }

/-- R43 with the defaults of R7, as the registers read them (spec/95 section 2.8). -/
def Obligations.ResetRegistersReadTheDefaults : Prop :=
  ∀ r : Reg, State.reset.readReg r =
    match r with
    | .baud => 0x00004B00
    | .tbyte => 0x00000208
    | .tbrk => 0x00000410
    | .params => 0x080A0202
    | .cmd | .status | .tto | .tstartBrk | .tstartTx | .txdata0 | .txdata1 | .frame => 0
    | .txframe0 | .txframe1 | .txframe2 | .rxbuf0 | .rxbuf1 | .rxbuf2 => 0

/-! ### The commands -/

/-- R151, R160, R85: NOP and the reserved commands, by name and by every word that has their OP, change no state, make no
transport call and set no flag. -/
def Obligations.NopAndReservedChangeNothing : Prop :=
  (∀ (i : Instr) (s : State),
    i ∈ [Instr.nop, .reserved9, .reservedA, .reservedB, .reservedC, .reservedD, .reservedE, .reservedF] →
    exec i s = .next s) ∧
  (∀ (w : Word) (s : State), w.toNat % 16 = 0 ∨ 9 ≤ w.toNat % 16 → exec (decodeWord w) s = .next s)

/-- R154: RESET, legal in every state, clears the transient state, keeps BAUD, TBYTE, TBRK, TXDATA and PARAMS, and makes
no transport call. -/
def Obligations.ResetCommandClearsTheTransaction : Prop :=
  ∀ s : State, ∃ t : State,
    exec .reset s = .next t ∧
    t = { s with
      phase := .idle, loaded := false, accept := false, err := 0, rxdone := false, tstartBrk := 0, tstartTx := 0,
      tto := 0, frame := t.frame, txframe := t.txframe, rxbuf := t.rxbuf } ∧
    t.readReg .status = 0 ∧ t.readReg .frame = 0 ∧
    ∀ k : Fin 12, byteAt t.txframe k.val = 0 ∧ byteAt t.rxbuf k.val = 0

/-- R155, R86(b): CONFIG with a legal rate, in IDLE or DONE, sets BAUD, TBYTE and TBRK and nothing else; with an illegal
rate, or in BREAK or BODY, it changes nothing. -/
def Obligations.ConfigSetsTheRateOrIsIgnored : Prop :=
  (∀ (baud : BitVec 24) (s : State),
    2 ≤ baud.toNat → baud.toNat ≤ 10000000 → s.phase = .idle ∨ s.phase = .done →
    ∃ t : State,
      exec (.config baud) s = .next t ∧
      t = { s with baud := baud, tbyte := t.tbyte, tbrk := t.tbrk } ∧
      t.tbyte.toNat = 10000000 / baud.toNat ∧
      t.tbrk.toNat = s.params.breakMult.toNat * (10000000 / baud.toNat)) ∧
  (∀ (baud : BitVec 24) (s : State),
    baud.toNat < 2 ∨ 10000000 < baud.toNat ∨ s.phase = .brk ∨ s.phase = .body →
    exec (.config baud) s = .next s)

/-- R156: an accepted LOAD clears ERR, the timestamps, TTO, RXBUF and RXDONE, latches the transaction and returns to
IDLE; it makes no transport call and keeps TXDATA and the configuration. FRAME's fields are those of R125 and R126. -/
def Obligations.LoadLatchesTheTransaction : Prop :=
  ∀ (id : BitVec 6) (len : BitVec 4) (mode : ChecksumMode) (dir : Direction) (s : State),
    len.toNat ≤ 8 → s.phase = .idle ∨ s.phase = .done →
    ∃ t : State,
      exec (.load id len mode dir) s = .next t ∧
      t = { s with
        phase := .idle, loaded := true, accept := true, err := 0, rxdone := false, tto := 0, tstartBrk := 0,
        tstartTx := 0, rxbuf := t.rxbuf, frame := t.frame, txframe := t.txframe } ∧
      (∀ k : Fin 12, byteAt t.rxbuf k.val = 0) ∧
      t.frame.pid = pidOf id ∧ t.frame.len = len ∧ t.frame.mode = mode ∧ t.frame.dir = dir ∧
      t.frame.txlen.toNat = (if dir = .write then len.toNat + 4 else 3) ∧
      t.frame.rxlen.toNat = (if dir = .write ∧ s.params.writeEchoScope = .header then 3 else len.toNat + 4) ∧
      t.frame.chk = (if dir = .write then computeChecksum (pidOf id) (s.txdata.toList.take len.toNat) mode else 0)

/-- R88: the outgoing buffer of a latched transaction, byte by byte: break placeholder, SYNC, PID, then for WRITE the
data and the checksum, and 0 from TXLEN on. -/
def Obligations.LatchedBufferHasTheLinLayout : Prop :=
  ∀ (id : BitVec 6) (len : BitVec 4) (mode : ChecksumMode) (dir : Direction) (s : State),
    len.toNat ≤ 8 → s.phase = .idle ∨ s.phase = .done →
    ∃ t : State,
      exec (.load id len mode dir) s = .next t ∧
      byteAt t.txframe 0 = 0x00 ∧ byteAt t.txframe 1 = 0x55 ∧ byteAt t.txframe 2 = pidOf id ∧
      (dir = .write →
        t.frame.txlen.toNat = len.toNat + 4 ∧
        (∀ k, k < len.toNat → byteAt t.txframe (3 + k) = byteAt s.txdata k) ∧
        byteAt t.txframe (3 + len.toNat) =
          computeChecksum (pidOf id) (s.txdata.toList.take len.toNat) mode) ∧
      (dir = .read → t.frame.txlen.toNat = 3) ∧
      ∀ k, t.frame.txlen.toNat ≤ k → byteAt t.txframe k = 0

/-- R86: (a) LOAD and REQUEST with LEN 9..15 are rejected in every state: ACCEPT is 0 and nothing else changes; (b) CONFIG
with a rate below 2 or above 10,000,000 changes no state. -/
def Obligations.IllegalOperandsAreRejected : Prop :=
  (∀ (id : BitVec 6) (len : BitVec 4) (mode : ChecksumMode) (dir : Direction) (s : State),
    9 ≤ len.toNat →
    exec (.load id len mode dir) s = .next { s with accept := false } ∧
    exec (.request id len mode dir) s = .next { s with accept := false }) ∧
  (∀ (baud : BitVec 24) (s : State),
    baud.toNat < 2 ∨ 10000000 < baud.toNat → exec (.config baud) s = .next s)

/-- R152: an accepted REQUEST latches as LOAD does and then starts the break: the transport is told to discard its input,
to halve the rate and to send 0x00, in this order; TTO is that of the new LEN (R123). -/
def Obligations.RequestLatchesAndStartsTheBreak : Prop :=
  ∀ (id : BitVec 6) (len : BitVec 4) (mode : ChecksumMode) (dir : Direction) (s : State),
    len.toNat ≤ 8 → s.phase = .idle ∨ s.phase = .done → 1 ≤ s.txRoom →
    ∃ t u : State,
      exec (.load id len mode dir) s = .next u ∧
      exec (.request id len mode dir) s = .next t ∧
      t = { u with
        phase := .brk, loaded := false, tstartBrk := s.now, tstartTx := s.now, tto := t.tto, rx := [],
        txRoom := s.txRoom - 1,
        calls := s.calls ++ [.rxDiscard, .setBaud (s.baud / 2), .txWrite [0x00]] } ∧
      t.tto.toNat = min (s.params.timeoutMult.toNat * (len.toNat + 5) * s.tbyte.toNat) (2 ^ 31 - 1)

/-- R152: in every state and for every operand REQUEST is LOAD, and then StartBreak if ACCEPT is 1. POLL after that LOAD,
at the same clock sample, is that StartBreak too (R153). -/
def Obligations.RequestIsLoadThenStartBreak : Prop :=
  ∀ (id : BitVec 6) (len : BitVec 4) (mode : ChecksumMode) (dir : Direction) (s : State),
    ∃ u : State,
      exec (.load id len mode dir) s = .next u ∧
      (u.accept = true → len.toNat ≤ 8 ∧ (s.phase = .idle ∨ s.phase = .done) ∧ u.phase = .idle ∧ u.loaded = true ∧
        exec (.request id len mode dir) s = exec .stepBreak u ∧ exec .poll u = exec .stepBreak u) ∧
      (u.accept = false → exec (.request id len mode dir) s = .next u)

/-- R127: StartBreak, by STEP_BREAK or POLL, in IDLE with a transaction latched and a transport that accepts the byte; and
misuse by STEP_BREAK elsewhere. What is left of the transport's room is no engine state and is not said here (log 4). -/
def Obligations.StartBreakFromIdle : Prop :=
  (∀ (i : Instr) (s : State),
    i = .stepBreak ∨ i = .poll → s.phase = .idle → s.loaded = true → 1 ≤ s.txRoom →
    ∃ t : State,
      exec i s = .next t ∧
      t = { s with
        phase := .brk, loaded := false, tstartBrk := s.now, tstartTx := s.now, tto := t.tto, rx := [],
        txRoom := t.txRoom,
        calls := s.calls ++ [.rxDiscard, .setBaud (s.baud / 2), .txWrite [byteAt s.txframe 0]] } ∧
      t.tto.toNat = min (s.params.timeoutMult.toNat * (s.frame.len.toNat + 5) * s.tbyte.toNat) (2 ^ 31 - 1)) ∧
  (∀ s : State, s.phase ≠ .idle ∨ s.loaded = false →
    exec .stepBreak s = .next { s with err := s.err ||| 0x1, loaded := false, phase := .done })

/-- R129: StepBody, by STEP_BODY or POLL, in BREAK: past the threshold, with a transport that accepts the bytes, it restores
the rate, sends `t[1..TXLEN-1]` and moves to BODY, even past the deadline; otherwise it times out past the deadline, and
else changes nothing. STEP_BODY elsewhere is misuse. -/
def Obligations.StepBodyInBreak : Prop :=
  (∀ (i : Instr) (s : State),
    i = .stepBody ∨ i = .poll → s.phase = .brk →
    (s.tbrk.toNat < (s.now.toNat + 2 ^ 32 - s.tstartBrk.toNat) % 2 ^ 32 →
      ((s.txframe.toList.take s.frame.txlen.toNat).drop 1).length ≤ s.txRoom →
      ∃ t : State,
        exec i s = .next t ∧
        t = { s with
          phase := .body, txRoom := t.txRoom,
          calls := s.calls ++
            [.setBaud s.baud, .txWrite ((s.txframe.toList.take s.frame.txlen.toNat).drop 1)] }) ∧
    ((s.now.toNat + 2 ^ 32 - s.tstartBrk.toNat) % 2 ^ 32 ≤ s.tbrk.toNat →
      s.tto.toNat < (s.now.toNat + 2 ^ 32 - s.tstartTx.toNat) % 2 ^ 32 →
      exec i s = .next { s with err := s.err ||| 0x2, phase := .done }) ∧
    ((s.now.toNat + 2 ^ 32 - s.tstartBrk.toNat) % 2 ^ 32 ≤ s.tbrk.toNat →
      (s.now.toNat + 2 ^ 32 - s.tstartTx.toNat) % 2 ^ 32 ≤ s.tto.toNat →
      exec i s = .next s)) ∧
  (∀ s : State, s.phase ≠ .brk →
    exec .stepBody s = .next { s with err := s.err ||| 0x1, loaded := false, phase := .done })

/-- R133: StepRecv, by STEP_RECV or POLL, in BODY: with RXLEN bytes available it reads exactly them, validates and moves
to DONE, even past the deadline; otherwise it times out past the deadline, and else only asks for the count. STEP_RECV
elsewhere is misuse. -/
def Obligations.StepRecvInBody : Prop :=
  (∀ (i : Instr) (s : State),
    i = .stepRecv ∨ i = .poll → s.phase = .body →
    (s.frame.rxlen.toNat ≤ s.rx.length →
      ∃ t : State,
        exec i s = .next t ∧
        t = { s with
          phase := .done, rxdone := true, rxbuf := t.rxbuf,
          err := s.err ||| validateResponse s.params s.frame s.txframe t.rxbuf,
          rx := s.rx.drop s.frame.rxlen.toNat,
          calls := s.calls ++ [.rxAvail s.rx.length, .rxRead (s.rx.take s.frame.rxlen.toNat)] } ∧
        ∀ k : Fin 12, byteAt t.rxbuf k.val =
          if k.val < s.frame.rxlen.toNat then s.rx.getD k.val 0 else byteAt s.rxbuf k.val) ∧
    (s.rx.length < s.frame.rxlen.toNat →
      s.tto.toNat < (s.now.toNat + 2 ^ 32 - s.tstartTx.toNat) % 2 ^ 32 →
      exec i s = .next { s with
        err := s.err ||| 0x2, phase := .done, calls := s.calls ++ [.rxAvail s.rx.length] }) ∧
    (s.rx.length < s.frame.rxlen.toNat →
      (s.now.toNat + 2 ^ 32 - s.tstartTx.toNat) % 2 ^ 32 ≤ s.tto.toNat →
      exec i s = .next { s with calls := s.calls ++ [.rxAvail s.rx.length] })) ∧
  (∀ s : State, s.phase ≠ .body →
    exec .stepRecv s = .next { s with err := s.err ||| 0x1, loaded := false, phase := .done })

/-- R153: POLL performs the step function of the current state, and none in DONE or in IDLE with nothing latched; it never
raises ERROR_STATE; and after a LOAD that is accepted it is the StartBreak of REQUEST. -/
def Obligations.PollPerformsTheEnabledStep : Prop :=
  (∀ s : State,
    (s.phase = .idle → s.loaded = true → exec .poll s = exec .stepBreak s) ∧
    (s.phase = .idle → s.loaded = false → exec .poll s = .next s) ∧
    (s.phase = .brk → exec .poll s = exec .stepBody s) ∧
    (s.phase = .body → exec .poll s = exec .stepRecv s) ∧
    (s.phase = .done → exec .poll s = .next s)) ∧
  (∀ s t : State, exec .poll s = .next t → t.err.getLsbD 0 = s.err.getLsbD 0) ∧
  (∀ (id : BitVec 6) (len : BitVec 4) (mode : ChecksumMode) (dir : Direction) (s u : State),
    exec (.load id len mode dir) s = .next u → u.accept = true → exec .poll u = exec (.request id len mode dir) s)

/-- R128: a step command out of its state, and a LOAD or REQUEST of a legal length in BREAK or BODY, is misuse: ERROR_STATE
is ORed in, LOADED is 0 and STATE is DONE, and nothing else changes (but ACCEPT, which LOAD and REQUEST clear). -/
def Obligations.MisuseGoesToDone : Prop :=
  (∀ (i : Instr) (s : State),
    (i = .stepBreak ∧ (s.phase ≠ .idle ∨ s.loaded = false)) ∨ (i = .stepBody ∧ s.phase ≠ .brk) ∨
      (i = .stepRecv ∧ s.phase ≠ .body) →
    exec i s = .next { s with err := s.err ||| 0x1, loaded := false, phase := .done }) ∧
  (∀ (id : BitVec 6) (len : BitVec 4) (mode : ChecksumMode) (dir : Direction) (s : State),
    len.toNat ≤ 8 → s.phase = .brk ∨ s.phase = .body →
    exec (.load id len mode dir) s =
      .next { s with accept := false, err := s.err ||| 0x1, loaded := false, phase := .done } ∧
    exec (.request id len mode dir) s =
      .next { s with accept := false, err := s.err ||| 0x1, loaded := false, phase := .done })

/-- R61, U2 (log 4): a command is refused, with `transportFull`, exactly when the transport cannot take the bytes of its
TxWrite; in every other case it answers a next state, and no command faults. -/
def Obligations.OnlyAFullTransportIsRefused : Prop :=
  ∀ (i : Instr) (s : State),
    (overfillsTransport i s → exec i s = .refused .transportFull) ∧
    (¬ overfillsTransport i s → ∃ t, exec i s = .next t)

/-! ### Whole-machine rules over all commands -/

/-- R120: these are the only moves of STATE. -/
def Obligations.OnlyTheListedMoves : Prop :=
  ∀ (i : Instr) (s t : State), exec i s = .next t → listedMove i s t.phase

/-- R182, R26: ERR bits are only added, unless the command clears ERR (RESET, an accepted LOAD or REQUEST), which leaves
it 0; and a command that adds one ends in DONE. -/
def Obligations.ErrorFlagsAccumulate : Prop :=
  ∀ (i : Instr) (s t : State), exec i s = .next t →
    (clearsErr i s → t.err = 0) ∧
    (¬ clearsErr i s → s.err &&& t.err = s.err) ∧
    (¬ clearsErr i s → t.err ≠ s.err → t.phase = .done)

/-- R181, R185: what one command adds to ERR is nothing; ERROR_STATE alone, exactly when the command finds the engine outside
the state it requires; ERROR_TIMEOUT alone, past the deadline and without the progress it waits for; or ERROR_ECHO or
ERROR_CHK or both, as validation of the bytes received finds. -/
def Obligations.ErrorCausesExcludeEachOther : Prop :=
  ∀ (i : Instr) (s t : State), exec i s = .next t → ¬ clearsErr i s →
    ∃ f : BitVec 4,
      t.err = s.err ||| f ∧ (f = 0x1 ↔ isMisuse i s) ∧
      (f = 0 ∨ f = 0x1 ∨
        (f = 0x2 ∧ s.timedOut = true ∧ ((s.phase = .brk ∧ i.stepsBody ∧ s.breakComplete = false) ∨
          (s.phase = .body ∧ i.stepsRecv ∧ s.rx.length < s.frame.rxlen.toNat))) ∨
        ((f = 0x4 ∨ f = 0x8 ∨ f = 0xC) ∧ receives i s ∧
          t.rxdone = true ∧ f = validateResponse s.params s.frame s.txframe t.rxbuf))

/-- R24, R25, R29 to R36, R38 to R40: a command changes a register only if the spec names it among the writers: TXDATA and
PARAMS no command; BAUD, TBYTE and TBRK only CONFIG; ACCEPT only LOAD, REQUEST and RESET; FRAME and TXFRAME only an
accepted LOAD or REQUEST and RESET; TTO and the timestamps those and StartBreak; RXBUF and RXDONE those and a StepRecv that
finds RXLEN bytes; LOADED those, StartBreak and misuse, and the last two only clear it. (STATE and ERR: OnlyTheListedMoves
and ErrorFlagsAccumulate.) No command touches the pending accesses, the clock or what was read. -/
def Obligations.EachRegisterHasItsWriters : Prop :=
  ∀ (i : Instr) (s t : State), exec i s = .next t →
    t.txdata = s.txdata ∧ t.params = s.params ∧ t.pending = s.pending ∧ t.now = s.now ∧ t.reads = s.reads ∧
    ((∀ b, i ≠ .config b) → t.baud = s.baud ∧ t.tbyte = s.tbyte ∧ t.tbrk = s.tbrk) ∧
    (i ≠ .reset → (∀ id len m d, i ≠ .load id len m d) → (∀ id len m d, i ≠ .request id len m d) →
      t.accept = s.accept) ∧
    (¬ clearsErr i s →
      t.frame = s.frame ∧ t.txframe = s.txframe ∧
      (¬ startsBreak i s → t.tto = s.tto ∧ t.tstartBrk = s.tstartBrk ∧ t.tstartTx = s.tstartTx) ∧
      (¬ receives i s → t.rxbuf = s.rxbuf ∧ t.rxdone = s.rxdone) ∧
      (t.loaded ≠ s.loaded → t.loaded = false ∧ (startsBreak i s ∨ isMisuse i s)))

/-- R67, R63, R64, R65: the transport calls of one command, in order, are one of these; so RxDiscard is called only by
StartBreak, SetBaud only by StartBreak and StepBody, and RxRead only for as many bytes as RxAvail has just reported. -/
def Obligations.TransportCallsOfOneCommand : Prop :=
  ∀ (i : Instr) (s t : State), exec i s = .next t →
    ∃ new : List Call,
      t.calls = s.calls ++ new ∧
      (new = [] ∨
        (t.phase = .brk ∧ s.phase ≠ .brk ∧
          new = [.rxDiscard, .setBaud (s.baud / 2), .txWrite [byteAt t.txframe 0]]) ∨
        (t.phase = .body ∧ s.phase = .brk ∧ new = [.setBaud s.baud, .txWrite s.bodyBytes]) ∨
        (s.phase = .body ∧ t.rxdone = s.rxdone ∧ new = [.rxAvail s.rx.length]) ∨
        (s.phase = .body ∧ t.phase = .done ∧ t.rxdone = true ∧
          ∃ bytes : List Byte, bytes.length = s.frame.rxlen.toNat ∧ bytes.length ≤ s.rx.length ∧
            s.rx = bytes ++ t.rx ∧ new = [.rxAvail s.rx.length, .rxRead bytes]))

/-- R41: the rate the engine last set is `BAUD div 2` in BREAK and BAUD in BODY; every step keeps this. -/
def Obligations.TransportRateFollowsTheState : Prop :=
  State.reset.RateInv ∧ ∀ s t : State, s.RateInv → step s = .next t → t.RateInv

/-! ### Invariants -/

/-- R42: every step, of any access, keeps the engine's invariants. -/
def Obligations.StepKeepsTheInvariants : Prop :=
  ∀ s t : State, s.Inv → step s = .next t → t.Inv

/-- R42, R43: they hold after power-on reset, for the default and for all legal parameters. -/
def Obligations.ResetMeetsTheInvariants : Prop :=
  State.reset.Inv ∧ ∀ p : Params, p.Legal → (State.resetWith p).Inv

/-- R42.3, R39: `t[0] = 0x00` whenever TXLEN ≠ 0; and TXLEN and RXLEN never exceed the buffers. -/
def Obligations.BreakPlaceholderIsZero : Prop :=
  ∀ s : State, s.Inv →
    (s.frame.txlen ≠ 0 → byteAt s.txframe 0 = 0) ∧ s.frame.txlen.toNat ≤ 12 ∧ s.frame.rxlen.toNat ≤ 12 ∧
    ∀ k, s.frame.txlen.toNat ≤ k → byteAt s.txframe k = 0

/-! ### Codec -/

/-- R101, R102, R89 and the values spec/95 section 2.1 lists: PID carries ID in its low six bits and the two parity bits above;
distinct identifiers give distinct PIDs, and none is 0x00 or 0xFF. -/
def Obligations.PidCarriesIdAndParity : Prop :=
  (∀ id : BitVec 6,
    (pidOf id).extractLsb' 0 6 = id ∧
    (pidOf id).getLsbD 6 = (((id.getLsbD 0 ^^ id.getLsbD 1) ^^ id.getLsbD 2) ^^ id.getLsbD 4) ∧
    (pidOf id).getLsbD 7 = !(((id.getLsbD 1 ^^ id.getLsbD 3) ^^ id.getLsbD 4) ^^ id.getLsbD 5) ∧
    pidOf id ≠ 0x00 ∧ pidOf id ≠ 0xFF) ∧
  (∀ id id' : BitVec 6, pidOf id = pidOf id' → id = id') ∧
  pidOf 0x00 = 0x80 ∧ pidOf 0x01 = 0xC1 ∧ pidOf 0x10 = 0x50 ∧ pidOf 0x3C = 0x3C ∧ pidOf 0x3D = 0x7D ∧
  pidOf 0x3F = 0xBF

/-- R106: the closed form of the checksum's accumulator. -/
def Obligations.ChecksumClosedForm : Prop :=
  ∀ (pid : Byte) (data : List Byte) (mode : ChecksumMode),
    (computeChecksum pid data mode).toNat =
      0xFF - (if coveredSum pid data mode = 0 then 0 else (coveredSum pid data mode - 1) % 255 + 1)

/-- R106(a), R106(e): the order of the data does not matter; in classic mode PID does not matter; in enhanced mode a
change of the identifier changes the checksum. -/
def Obligations.ChecksumOrderAndPid : Prop :=
  (∀ (pid : Byte) (data data' : List Byte) (mode : ChecksumMode),
    data.Perm data' → computeChecksum pid data mode = computeChecksum pid data' mode) ∧
  (∀ (pid pid' : Byte) (data : List Byte), computeChecksum pid data .classic = computeChecksum pid' data .classic) ∧
  (∀ (id id' : BitVec 6) (data : List Byte), id ≠ id' →
    computeChecksum (pidOf id) data .enhanced ≠ computeChecksum (pidOf id') data .enhanced)

/-- R106(c), R106(d): a single-bit flip of one covered data byte changes the checksum; a 0x00 for a 0xFF, or the other way
round, does not, when some other covered byte is non-zero. -/
def Obligations.ChecksumDetectsSingleBitFlips : Prop :=
  (∀ (pid : Byte) (before after : List Byte) (b : Byte) (k : Fin 8) (mode : ChecksumMode),
    computeChecksum pid (before ++ (b ^^^ (1#8 <<< k.val)) :: after) mode ≠
      computeChecksum pid (before ++ b :: after) mode) ∧
  (∀ (pid : Byte) (before after : List Byte) (mode : ChecksumMode),
    coveredSum pid (before ++ after) mode ≠ 0 →
    computeChecksum pid (before ++ 0x00 :: after) mode = computeChecksum pid (before ++ 0xFF :: after) mode)

/-- R108 to R110: ERROR_ECHO exactly when SYNC or PID comes back different, or the break artifact is checked and not 0x00;
ERROR_CHK exactly when RXLEN = LEN + 4 and the checksum over the received data, with the transmitted PID, is not the
received one; each independent of the other, and no other flag. -/
def Obligations.ValidationMakesBothChecks : Prop :=
  ∀ (p : Params) (f : Frame) (t r : Vector Byte 12),
    ((validateResponse p f t r).getLsbD 2 = true ↔
      byteAt r 1 ≠ byteAt t 1 ∨ byteAt r 2 ≠ byteAt t 2 ∨ (p.checkBreakEcho = true ∧ byteAt r 0 ≠ 0x00)) ∧
    ((validateResponse p f t r).getLsbD 3 = true ↔
      f.rxlen.toNat = f.len.toNat + 4 ∧
        computeChecksum f.pid ((r.toList.drop 3).take f.len.toNat) f.mode ≠ byteAt r (3 + f.len.toNat)) ∧
    (validateResponse p f t r).getLsbD 0 = false ∧ (validateResponse p f t r).getLsbD 1 = false

/-! ### Time -/

/-- R132: when `BREAK_MULT ≤ TIMEOUT_MULT * (LEN + 5)`, as with the defaults, no transaction times out in BREAK. -/
def Obligations.NoTimeoutInBreakByDefault : Prop :=
  ∀ (i : Instr) (s t : State),
    s.Inv → s.phase = .brk → s.params.breakMult.toNat ≤ s.params.timeoutMult.toNat * (s.frame.len.toNat + 5) →
    exec i s = .next t → (s.err ||| t.err).getLsbD 1 = false

/-- R37: no rule depends on the absolute value of the clock: on two states that differ only in it, every command answers
alike, and the two next states again differ only in it. -/
def Obligations.OnlyTimeDifferencesMatter : Prop :=
  ∀ (i : Instr) (s u : State), SameButClock s u →
    (∀ t, exec i s = .next t → ∃ v, exec i u = .next v ∧ SameButClock t v) ∧
    (∀ r, exec i s = .fault r → exec i u = .fault r) ∧
    (∀ r, exec i s = .refused r → exec i u = .refused r)

/-- R137: after StartBreak, if the transport never has RXLEN bytes and the host keeps issuing POLL, each at least `δ ≥ 1`
microseconds after the one before, then after `ceil((TTO + 1) / δ) + 1` POLLs, or any number more, the transaction is in
DONE with ERROR_TIMEOUT. The time from StartBreak to each POLL issued before DONE, the deciding one the last of them, is
less than 2^32 microseconds. The transport takes what it is sent (R204(a)). -/
def Obligations.PollingEndsInTimeout : Prop :=
  ∀ (s : State) (δ : Nat),
    s.phase = .brk → s.tstartBrk = s.now → s.tstartTx = s.now → 1 ≤ δ →
    (∀ e ∈ s.pending, e.access = .write (s.params.base + 0x00) 4 0x00000002 ∧ δ ≤ e.dt ∧
      e.rx.length < s.frame.rxlen.toNat ∧ 11 ≤ e.txRoom) →
    (∀ (n : Nat) (u : State), run n s = .next u → u.phase ≠ .done →
      ((s.pending.take (n + 1)).map Event.dt).sum < 2 ^ 32) →
    (s.tto.toNat + 1 + (δ - 1)) / δ + 1 ≤ s.pending.length →
    ∃ t : State, run s.pending.length s = .next t ∧ t.phase = .done ∧ t.err.getLsbD 1 = true

/-! ### Transactions -/

/-- R184: a new transaction does not depend on the one before it: an accepted LOAD or REQUEST leaves the same state from
any two states that agree on the configuration, TXDATA and the world outside. -/
def Obligations.NextTransactionIsIndependent : Prop :=
  ∀ (id : BitVec 6) (len : BitVec 4) (mode : ChecksumMode) (dir : Direction) (s u : State),
    len.toNat ≤ 8 → s.inFlight = false → u.inFlight = false → SameConfiguration s u →
    exec (.load id len mode dir) s = exec (.load id len mode dir) u ∧
    exec (.request id len mode dir) s = exec (.request id len mode dir) u

/-- Spec/95 scenario 2, for every master-write: REQUEST, a POLL past the threshold, and a POLL that finds the echo of the
whole frame, whatever follows it, end in DONE with ERR 0 and the frame in RXBUF. -/
def Obligations.HealthyWriteEndsWithoutError : Prop :=
  ∀ (id : BitVec 6) (len : BitVec 4) (mode : ChecksumMode) (s : State) (e1 e2 e3 : Event) (rest : List Event)
    (extra : List Byte),
    len.toNat ≤ 8 → s.phase = .idle ∨ s.phase = .done → s.pending = e1 :: e2 :: e3 :: rest →
    e1.access = .write (s.params.base + 0x00) 4 (encode (.request id len mode .write)) → 1 ≤ e1.txRoom →
    e2.access = .write (s.params.base + 0x00) 4 0x00000002 → s.tbrk.toNat < e2.dt → e2.dt < 2 ^ 32 → 11 ≤ e2.txRoom →
    e3.access = .write (s.params.base + 0x00) 4 0x00000002 →
    e3.rx = [0x00, 0x55, pidOf id] ++ s.txdata.toList.take len.toNat ++
      [computeChecksum (pidOf id) (s.txdata.toList.take len.toNat) mode] ++ extra →
    ∃ t : State,
      run 3 s = .next t ∧ t.phase = .done ∧ t.err = 0 ∧ t.rxdone = true ∧ t.accept = true ∧
      ∀ k : Fin 12, k.val < t.frame.rxlen.toNat → byteAt t.rxbuf k.val = byteAt t.txframe k.val

/-- Spec/95 scenario 3 and program P2, for every master-read: the same when the header echo is followed by LEN bytes from
the slave and a checksum byte `c`: ERR is 0 when `c` is their checksum and ERROR_CHK alone when it is not, and the
payload is in `r[3..3+LEN-1]` (R40). -/
def Obligations.MasterReadChecksTheSlavesChecksum : Prop :=
  ∀ (id : BitVec 6) (len : BitVec 4) (mode : ChecksumMode) (s : State) (e1 e2 e3 : Event) (rest : List Event)
    (data extra : List Byte) (c : Byte),
    len.toNat ≤ 8 → data.length = len.toNat → s.phase = .idle ∨ s.phase = .done →
    s.pending = e1 :: e2 :: e3 :: rest →
    e1.access = .write (s.params.base + 0x00) 4 (encode (.request id len mode .read)) → 1 ≤ e1.txRoom →
    e2.access = .write (s.params.base + 0x00) 4 0x00000002 → s.tbrk.toNat < e2.dt → e2.dt < 2 ^ 32 → 2 ≤ e2.txRoom →
    e3.access = .write (s.params.base + 0x00) 4 0x00000002 →
    e3.rx = [0x00, 0x55, pidOf id] ++ data ++ [c] ++ extra →
    ∃ t : State,
      run 3 s = .next t ∧ t.phase = .done ∧ t.rxdone = true ∧ t.rx = extra ∧
      t.err = (if c = computeChecksum (pidOf id) data mode then 0 else 0x8) ∧
      (t.rxbuf.toList.drop 3).take len.toNat = data

/-! ### The host's side and the wire -/

/-- R95: the two writes of SETDATA leave the eight bytes in TXDATA and change nothing else of the engine. -/
def Obligations.SetDataFillsTxdata : Prop :=
  ∀ (s : State) (bytes : Vector Byte 8) (e1 e2 : Event) (rest : List Event),
    s.pending = e1 :: e2 :: rest → [e1.access, e2.access] = setDataAccesses s.params.base bytes →
    run 2 s = .next { s with
      pending := rest, now := s.now + BitVec.ofNat 32 e1.dt + BitVec.ofNat 32 e2.dt, rx := e2.rx, txRoom := e2.txRoom,
      txdata := bytes }

/-- R92, R93 (log 11: general knowledge in the spec): the break byte is nine bit-times low and then one high. -/
def Obligations.BreakByteIsNineBitsLow : Prop :=
  wireLevels 0x00 = List.replicate 9 false ++ [true] ∧ ∀ b : Byte, (wireLevels b).length = bitsPerByte

/-- R130: with `BREAK_MULT = 2` and an even legal BAUD, the threshold falls less than 2 microseconds before the break
byte's stop bit ends, and not after it. -/
def Obligations.ThresholdIsAtTheBreakBytesEnd : Prop :=
  ∀ (p : Params) (baud : BitVec 24),
    p.breakMult = 2 → legalBaud baud = true → baud.toNat % 2 = 0 →
    ((tbrkOf p (tbyteOf baud)).toNat : ℚ) ≤ breakByteTime baud ∧
    breakByteTime baud < (tbrkOf p (tbyteOf baud)).toNat + 2
end

