-- ==== Sys2Proof/Laws/Buffers.lean ====
section
/-! SUPPORT. Laws/Buffers.lean: the byte view of the buffers: two buffers with the same bytes are equal, and what padding,
overlaying and slicing do to each byte. -/

namespace Sys2Proof.Machine

@[simp] theorem padTo_toList (n : Nat) (l : List Byte) : (padTo n l).toList = (l ++ List.replicate n 0#8).take n := rfl

theorem byteAt_of_le {n : Nat} (v : Vector Byte n) {k : Nat} (h : n ≤ k) : byteAt v k = 0#8 := by
  simp [byteAt, List.getD_eq_getElem?_getD, h]

theorem byteAt_of_lt {n : Nat} (v : Vector Byte n) {k : Nat} (h : k < n) : byteAt v k = v[k] := by
  simp [byteAt, List.getD_eq_getElem?_getD, h]

/-- A buffer is determined by its bytes. -/
theorem buffer_ext {n : Nat} {u v : Vector Byte n} (h : ∀ k < n, byteAt u k = byteAt v k) : u = v := by
  ext k hk
  rw [← byteAt_of_lt u hk, ← byteAt_of_lt v hk, h k hk]

theorem byteAt_padTo (n : Nat) (l : List Byte) (k : Nat) :
    byteAt (padTo n l) k = if k < n then l.getD k 0#8 else 0#8 := by
  simp only [byteAt, padTo_toList, List.getD_eq_getElem?_getD, List.getElem?_take]
  split
  · rcases Nat.lt_or_ge k l.length with h | h
    · simp [List.getElem?_append_left h, List.getElem?_eq_getElem h]
    · rw [List.getElem?_append_right h, List.getElem?_eq_none h, List.getElem?_replicate]
      split <;> simp
  · simp

theorem byteAt_padTo_of_lt {n k : Nat} (l : List Byte) (h : k < n) : byteAt (padTo n l) k = l.getD k 0#8 := by
  simp [byteAt_padTo, h]

@[simp] theorem byteAt_padTo_nil (n k : Nat) : byteAt (padTo n []) k = 0#8 := by
  simp [byteAt_padTo]

/-- Overlaying from the start replaces the bytes of `l` and keeps the others. -/
theorem byteAt_overlay_zero {n : Nat} (v : Vector Byte n) (l : List Byte) {k : Nat} (hk : k < n) :
    byteAt (overlay v 0 l) k = if k < l.length then l.getD k 0#8 else byteAt v k := by
  rw [overlay, byteAt_padTo_of_lt _ hk]
  simp only [byteAt, List.getD_eq_getElem?_getD, List.take_zero, List.nil_append, Nat.zero_add]
  split
  · next h => simp [List.getElem?_append_left h]
  · next h =>
    rw [List.getElem?_append_right (by omega), List.getElem?_drop]
    congr 2
    omega

/-- Overlaying at `pos` replaces the bytes of `l` from there on and keeps the others. -/
theorem byteAt_overlay {n : Nat} (v : Vector Byte n) {pos : Nat} (l : List Byte) {k : Nat} (hp : pos ≤ n) (hk : k < n) :
    byteAt (overlay v pos l) k =
      if pos ≤ k ∧ k < pos + l.length then l.getD (k - pos) 0#8 else byteAt v k := by
  have ht : (v.toList.take pos).length = pos := by simp [hp]
  rw [overlay, byteAt_padTo_of_lt _ hk]
  simp only [byteAt, List.getD_eq_getElem?_getD]
  rcases Nat.lt_or_ge k pos with h | h
  · rw [List.append_assoc, List.getElem?_append_left (by omega), List.getElem?_take]
    simp [h, Nat.not_le.mpr h]
  · rw [List.append_assoc, List.getElem?_append_right (by omega), ht]
    rcases Nat.lt_or_ge k (pos + l.length) with h2 | h2
    · rw [List.getElem?_append_left (by omega)]
      simp [h, h2]
    · rw [List.getElem?_append_right (by omega), List.getElem?_drop]
      have h3 : ¬ (pos ≤ k ∧ k < pos + l.length) := by omega
      rw [if_neg h3]
      congr 2
      omega

@[simp] theorem length_slice {n : Nat} (v : Vector Byte n) (lo len : Nat) :
    (slice v lo len).length = min len (n - lo) := by
  simp [slice]

/-- A slice inside the bytes a buffer was filled with. -/
theorem slice_padTo {n : Nat} (l : List Byte) {lo len : Nat} (h : lo + len ≤ l.length) (hn : lo + len ≤ n) :
    slice (padTo n l) lo len = (l.drop lo).take len := by
  rw [slice, padTo_toList, List.drop_take, List.take_take, Nat.min_eq_left (by omega),
    List.drop_append_of_le_length (by omega), List.take_append_of_le_length (by simp; omega)]

/-- The bytes `t[lo ..]` up to the first `hi`. -/
theorem slice_eq_drop_take {n : Nat} (v : Vector Byte n) (lo hi : Nat) :
    slice v lo (hi - lo) = (v.toList.take hi).drop lo := by
  rw [slice, List.drop_take]

end Sys2Proof.Machine
end

