-- ==== Sys2Proof/Laws/Codec.lean ====
section
/-! SUPPORT. Laws/Codec.lean: the checksum's accumulator stays in 0..255 (R104), step by step and over a list. -/

namespace Sys2Proof.Machine

/-- R104: the accumulator stays below 256 and grows by the byte modulo 255. -/
theorem addFold_spec {s : Nat} (b : Byte) (h : s ≤ 255) :
    addFold s b ≤ 255 ∧ addFold s b % 255 = (s + b.toNat) % 255 ∧ (addFold s b = 0 ↔ s = 0 ∧ b.toNat = 0) := by
  have hb := b.isLt
  unfold addFold
  split <;> omega

theorem checksumStart_le (pid : Byte) (mode : ChecksumMode) : checksumStart pid mode ≤ 255 := by
  have := pid.isLt
  cases mode
  · exact Nat.zero_le _
  · exact Nat.le_of_lt_succ this

/-- R104 over a list: the bound, the value modulo 255, and when it is 0. -/
theorem foldl_addFold_spec (data : List Byte) {s : Nat} (h : s ≤ 255) :
    data.foldl addFold s ≤ 255 ∧ data.foldl addFold s % 255 = (s + (data.map BitVec.toNat).sum) % 255 ∧
      (data.foldl addFold s = 0 ↔ s + (data.map BitVec.toNat).sum = 0) := by
  induction data generalizing s with
  | nil => simp [h]
  | cons b bs ih =>
    obtain ⟨h1, h2, h3⟩ := addFold_spec b h
    obtain ⟨i1, i2, i3⟩ := ih h1
    simp only [List.foldl_cons, List.map_cons, List.sum_cons]
    refine ⟨i1, by omega, by rw [i3]; omega⟩

/-- The checksum is the complement of the accumulator, with nothing lost in eight bits. -/
theorem computeChecksum_toNat (pid : Byte) (data : List Byte) (mode : ChecksumMode) :
    (computeChecksum pid data mode).toNat = 255 - data.foldl addFold (checksumStart pid mode) := by
  have h := (foldl_addFold_spec data (checksumStart_le pid mode)).1
  rw [computeChecksum, BitVec.toNat_ofNat]
  omega

end Sys2Proof.Machine
end

