-- ==== Sys2Proof/Laws/PerInstr.lean ====
section
/-! SUPPORT. Laws/PerInstr.lean: the family OpField, one lemma per constructor: the low four bits of a command's word are
its OP (R80, R81). -/

namespace Sys2Proof.Laws.OpField

/-- R80: the operation field of the encoded command. -/
def Statement (i : Instr) : Prop := opOf (encode i) = i.op

/-- The concatenation puts OP in the low four bits. -/
theorem opOf_append (a : BitVec 28) (o : BitVec 4) : opOf (a ++ o) = o := by
  apply BitVec.eq_of_getLsbD_eq
  intro k hk
  rw [opOf, field, BitVec.getLsbD_extractLsb', Nat.zero_add, BitVec.getLsbD_append]
  simp [hk]

theorem nop : Statement .nop := opOf_append _ _
theorem request (id : BitVec 6) (len : BitVec 4) (mode : ChecksumMode) (dir : Direction) :
    Statement (.request id len mode dir) := opOf_append _ _
theorem poll : Statement .poll := opOf_append _ _
theorem reset : Statement .reset := opOf_append _ _
theorem config (baud : BitVec 24) : Statement (.config baud) := opOf_append _ _
theorem load (id : BitVec 6) (len : BitVec 4) (mode : ChecksumMode) (dir : Direction) :
    Statement (.load id len mode dir) := opOf_append _ _
theorem stepBreak : Statement .stepBreak := opOf_append _ _
theorem stepBody : Statement .stepBody := opOf_append _ _
theorem stepRecv : Statement .stepRecv := opOf_append _ _
theorem reserved9 : Statement .reserved9 := opOf_append _ _
theorem reservedA : Statement .reservedA := opOf_append _ _
theorem reservedB : Statement .reservedB := opOf_append _ _
theorem reservedC : Statement .reservedC := opOf_append _ _
theorem reservedD : Statement .reservedD := opOf_append _ _
theorem reservedE : Statement .reservedE := opOf_append _ _
theorem reservedF : Statement .reservedF := opOf_append _ _

end Sys2Proof.Laws.OpField
end

