-- ==== Sys2Proof/Laws/Encoding.lean ====
section
/-! SUPPORT. Laws/Encoding.lean: the fields of an encoded command, one by one (R80, R82, R83), and a word from its bytes
(R56). -/

namespace Sys2Proof

/-- Above OP, a field of a command word is a field of its operands. -/
theorem field_append (a : BitVec 28) (o : BitVec 4) {lo : Nat} (n : Nat) (h : 4 ≤ lo) :
    field (a ++ o) lo n = a.extractLsb' (lo - 4) n := by
  apply BitVec.eq_of_getLsbD_eq
  intro k hk
  rw [field, BitVec.getLsbD_extractLsb', BitVec.getLsbD_append, BitVec.getLsbD_extractLsb']
  simp only [show ¬ (lo + k < 4) by omega, if_false]
  congr 2
  omega

@[simp] theorem mode_ofBit_toBit (m : ChecksumMode) : ChecksumMode.ofBit m.toBit = m := by cases m <;> rfl

@[simp] theorem dir_ofBit_toBit (d : Direction) : Direction.ofBit d.toBit = d := by cases d <;> rfl

/-- R82. -/
theorem transactionOperands_id (id : BitVec 6) (len : BitVec 4) (mode : ChecksumMode) (dir : Direction) :
    (transactionOperands id len mode dir).extractLsb' 0 6 = id := by
  apply BitVec.eq_of_getLsbD_eq
  intro k hk
  rw [transactionOperands, BitVec.getLsbD_extractLsb', BitVec.getLsbD_append]
  simp [hk]

/-- R82. -/
theorem transactionOperands_len (id : BitVec 6) (len : BitVec 4) (mode : ChecksumMode) (dir : Direction) :
    (transactionOperands id len mode dir).extractLsb' 6 4 = len := by
  apply BitVec.eq_of_getLsbD_eq
  intro k hk
  rw [transactionOperands, BitVec.getLsbD_extractLsb', BitVec.getLsbD_append, BitVec.getLsbD_append]
  simp [hk]

/-- R82. -/
theorem transactionOperands_mode (id : BitVec 6) (len : BitVec 4) (mode : ChecksumMode) (dir : Direction) :
    (transactionOperands id len mode dir).extractLsb' 10 1 = mode.toBit := by
  apply BitVec.eq_of_getLsbD_eq
  intro k hk
  obtain rfl : k = 0 := by omega
  rw [transactionOperands, BitVec.getLsbD_extractLsb', BitVec.getLsbD_append, BitVec.getLsbD_append, BitVec.getLsbD_append]
  simp

/-- R82. -/
theorem transactionOperands_dir (id : BitVec 6) (len : BitVec 4) (mode : ChecksumMode) (dir : Direction) :
    (transactionOperands id len mode dir).extractLsb' 11 1 = dir.toBit := by
  apply BitVec.eq_of_getLsbD_eq
  intro k hk
  obtain rfl : k = 0 := by omega
  rw [transactionOperands, BitVec.getLsbD_extractLsb', BitVec.getLsbD_append, BitVec.getLsbD_append, BitVec.getLsbD_append,
    BitVec.getLsbD_append]
  simp

/-- R56: the four bytes of a word give the word back. -/
theorem wordOfBytes_extract (w : Word) :
    wordOfBytes (w.extractLsb' 0 8) (w.extractLsb' 8 8) (w.extractLsb' 16 8) (w.extractLsb' 24 8) = w := by
  apply BitVec.eq_of_getLsbD_eq
  intro k hk
  simp only [wordOfBytes, BitVec.getLsbD_append, BitVec.getLsbD_extractLsb']
  rcases (by omega : k < 8 ∨ (8 ≤ k ∧ k < 16) ∨ (16 ≤ k ∧ k < 24) ∨ 24 ≤ k) with h | h | h | h
  · simp [h]
  · simp [show ¬ k < 8 by omega, show k - 8 < 8 by omega, show 8 + (k - 8) = k by omega]
  · simp [show ¬ k < 8 by omega, show ¬ k - 8 < 8 by omega, show k - 8 - 8 < 8 by omega,
      show 16 + (k - 8 - 8) = k by omega]
  · simp [show ¬ k < 8 by omega, show ¬ k - 8 < 8 by omega, show ¬ k - 8 - 8 < 8 by omega,
      show k - 8 - 8 - 8 < 8 by omega, show 24 + (k - 8 - 8 - 8) = k by omega]

/-- R81: the decoded command is the one of the word's OP. -/
theorem decodeWord_op (w : Word) : (decodeWord w).op = opOf w := by
  have h := (opOf w).isLt
  apply BitVec.eq_of_toNat_eq
  unfold decodeWord
  rcases hk : (opOf w).toNat with _ | _ | _ | _ | _ | _ | _ | _ | _ | _ | _ | _ | _ | _ | _ | _ | n <;>
    first | rfl | omega

end Sys2Proof
end

