-- ==== Sys2Proof/Laws/State.lean ====
section
/-! SUPPORT. Laws/State.lean: what each named update does to each field of State, one lemma per field per update. -/

namespace Sys2Proof.Machine

/-! `flag` (R10) -/

@[simp] theorem flag_phase (s : State) (f : BitVec 4) : (s.flag f).phase = s.phase := rfl
@[simp] theorem flag_loaded (s : State) (f : BitVec 4) : (s.flag f).loaded = s.loaded := rfl
@[simp] theorem flag_accept (s : State) (f : BitVec 4) : (s.flag f).accept = s.accept := rfl
@[simp] theorem flag_err (s : State) (f : BitVec 4) : (s.flag f).err = s.err ||| f := rfl
@[simp] theorem flag_rxdone (s : State) (f : BitVec 4) : (s.flag f).rxdone = s.rxdone := rfl
@[simp] theorem flag_baud (s : State) (f : BitVec 4) : (s.flag f).baud = s.baud := rfl
@[simp] theorem flag_tbyte (s : State) (f : BitVec 4) : (s.flag f).tbyte = s.tbyte := rfl
@[simp] theorem flag_tbrk (s : State) (f : BitVec 4) : (s.flag f).tbrk = s.tbrk := rfl
@[simp] theorem flag_tto (s : State) (f : BitVec 4) : (s.flag f).tto = s.tto := rfl
@[simp] theorem flag_tstartBrk (s : State) (f : BitVec 4) : (s.flag f).tstartBrk = s.tstartBrk := rfl
@[simp] theorem flag_tstartTx (s : State) (f : BitVec 4) : (s.flag f).tstartTx = s.tstartTx := rfl
@[simp] theorem flag_txdata (s : State) (f : BitVec 4) : (s.flag f).txdata = s.txdata := rfl
@[simp] theorem flag_frame (s : State) (f : BitVec 4) : (s.flag f).frame = s.frame := rfl
@[simp] theorem flag_txframe (s : State) (f : BitVec 4) : (s.flag f).txframe = s.txframe := rfl
@[simp] theorem flag_rxbuf (s : State) (f : BitVec 4) : (s.flag f).rxbuf = s.rxbuf := rfl
@[simp] theorem flag_params (s : State) (f : BitVec 4) : (s.flag f).params = s.params := rfl
@[simp] theorem flag_now (s : State) (f : BitVec 4) : (s.flag f).now = s.now := rfl
@[simp] theorem flag_rx (s : State) (f : BitVec 4) : (s.flag f).rx = s.rx := rfl
@[simp] theorem flag_txRoom (s : State) (f : BitVec 4) : (s.flag f).txRoom = s.txRoom := rfl
@[simp] theorem flag_pending (s : State) (f : BitVec 4) : (s.flag f).pending = s.pending := rfl
@[simp] theorem flag_calls (s : State) (f : BitVec 4) : (s.flag f).calls = s.calls := rfl
@[simp] theorem flag_reads (s : State) (f : BitVec 4) : (s.flag f).reads = s.reads := rfl

/-! `call` (R67) -/

@[simp] theorem call_phase (s : State) (c : Call) : (s.call c).phase = s.phase := rfl
@[simp] theorem call_loaded (s : State) (c : Call) : (s.call c).loaded = s.loaded := rfl
@[simp] theorem call_accept (s : State) (c : Call) : (s.call c).accept = s.accept := rfl
@[simp] theorem call_err (s : State) (c : Call) : (s.call c).err = s.err := rfl
@[simp] theorem call_rxdone (s : State) (c : Call) : (s.call c).rxdone = s.rxdone := rfl
@[simp] theorem call_baud (s : State) (c : Call) : (s.call c).baud = s.baud := rfl
@[simp] theorem call_tbyte (s : State) (c : Call) : (s.call c).tbyte = s.tbyte := rfl
@[simp] theorem call_tbrk (s : State) (c : Call) : (s.call c).tbrk = s.tbrk := rfl
@[simp] theorem call_tto (s : State) (c : Call) : (s.call c).tto = s.tto := rfl
@[simp] theorem call_tstartBrk (s : State) (c : Call) : (s.call c).tstartBrk = s.tstartBrk := rfl
@[simp] theorem call_tstartTx (s : State) (c : Call) : (s.call c).tstartTx = s.tstartTx := rfl
@[simp] theorem call_txdata (s : State) (c : Call) : (s.call c).txdata = s.txdata := rfl
@[simp] theorem call_frame (s : State) (c : Call) : (s.call c).frame = s.frame := rfl
@[simp] theorem call_txframe (s : State) (c : Call) : (s.call c).txframe = s.txframe := rfl
@[simp] theorem call_rxbuf (s : State) (c : Call) : (s.call c).rxbuf = s.rxbuf := rfl
@[simp] theorem call_params (s : State) (c : Call) : (s.call c).params = s.params := rfl
@[simp] theorem call_now (s : State) (c : Call) : (s.call c).now = s.now := rfl
@[simp] theorem call_rx (s : State) (c : Call) : (s.call c).rx = s.rx := rfl
@[simp] theorem call_txRoom (s : State) (c : Call) : (s.call c).txRoom = s.txRoom := rfl
@[simp] theorem call_pending (s : State) (c : Call) : (s.call c).pending = s.pending := rfl
@[simp] theorem call_calls (s : State) (c : Call) : (s.call c).calls = s.calls ++ [c] := rfl
@[simp] theorem call_reads (s : State) (c : Call) : (s.call c).reads = s.reads := rfl

/-! `rxDiscard` (R64) -/

@[simp] theorem rxDiscard_phase (s : State) : (rxDiscard s).phase = s.phase := rfl
@[simp] theorem rxDiscard_loaded (s : State) : (rxDiscard s).loaded = s.loaded := rfl
@[simp] theorem rxDiscard_accept (s : State) : (rxDiscard s).accept = s.accept := rfl
@[simp] theorem rxDiscard_err (s : State) : (rxDiscard s).err = s.err := rfl
@[simp] theorem rxDiscard_rxdone (s : State) : (rxDiscard s).rxdone = s.rxdone := rfl
@[simp] theorem rxDiscard_baud (s : State) : (rxDiscard s).baud = s.baud := rfl
@[simp] theorem rxDiscard_tbyte (s : State) : (rxDiscard s).tbyte = s.tbyte := rfl
@[simp] theorem rxDiscard_tbrk (s : State) : (rxDiscard s).tbrk = s.tbrk := rfl
@[simp] theorem rxDiscard_tto (s : State) : (rxDiscard s).tto = s.tto := rfl
@[simp] theorem rxDiscard_tstartBrk (s : State) : (rxDiscard s).tstartBrk = s.tstartBrk := rfl
@[simp] theorem rxDiscard_tstartTx (s : State) : (rxDiscard s).tstartTx = s.tstartTx := rfl
@[simp] theorem rxDiscard_txdata (s : State) : (rxDiscard s).txdata = s.txdata := rfl
@[simp] theorem rxDiscard_frame (s : State) : (rxDiscard s).frame = s.frame := rfl
@[simp] theorem rxDiscard_txframe (s : State) : (rxDiscard s).txframe = s.txframe := rfl
@[simp] theorem rxDiscard_rxbuf (s : State) : (rxDiscard s).rxbuf = s.rxbuf := rfl
@[simp] theorem rxDiscard_params (s : State) : (rxDiscard s).params = s.params := rfl
@[simp] theorem rxDiscard_now (s : State) : (rxDiscard s).now = s.now := rfl
@[simp] theorem rxDiscard_rx (s : State) : (rxDiscard s).rx = [] := rfl
@[simp] theorem rxDiscard_txRoom (s : State) : (rxDiscard s).txRoom = s.txRoom := rfl
@[simp] theorem rxDiscard_pending (s : State) : (rxDiscard s).pending = s.pending := rfl
@[simp] theorem rxDiscard_calls (s : State) : (rxDiscard s).calls = s.calls ++ [.rxDiscard] := rfl
@[simp] theorem rxDiscard_reads (s : State) : (rxDiscard s).reads = s.reads := rfl

/-! `setBaud` (R65) -/

@[simp] theorem setBaud_phase (s : State) (rate : BitVec 24) : (setBaud rate s).phase = s.phase := rfl
@[simp] theorem setBaud_loaded (s : State) (rate : BitVec 24) : (setBaud rate s).loaded = s.loaded := rfl
@[simp] theorem setBaud_accept (s : State) (rate : BitVec 24) : (setBaud rate s).accept = s.accept := rfl
@[simp] theorem setBaud_err (s : State) (rate : BitVec 24) : (setBaud rate s).err = s.err := rfl
@[simp] theorem setBaud_rxdone (s : State) (rate : BitVec 24) : (setBaud rate s).rxdone = s.rxdone := rfl
@[simp] theorem setBaud_baud (s : State) (rate : BitVec 24) : (setBaud rate s).baud = s.baud := rfl
@[simp] theorem setBaud_tbyte (s : State) (rate : BitVec 24) : (setBaud rate s).tbyte = s.tbyte := rfl
@[simp] theorem setBaud_tbrk (s : State) (rate : BitVec 24) : (setBaud rate s).tbrk = s.tbrk := rfl
@[simp] theorem setBaud_tto (s : State) (rate : BitVec 24) : (setBaud rate s).tto = s.tto := rfl
@[simp] theorem setBaud_tstartBrk (s : State) (rate : BitVec 24) : (setBaud rate s).tstartBrk = s.tstartBrk := rfl
@[simp] theorem setBaud_tstartTx (s : State) (rate : BitVec 24) : (setBaud rate s).tstartTx = s.tstartTx := rfl
@[simp] theorem setBaud_txdata (s : State) (rate : BitVec 24) : (setBaud rate s).txdata = s.txdata := rfl
@[simp] theorem setBaud_frame (s : State) (rate : BitVec 24) : (setBaud rate s).frame = s.frame := rfl
@[simp] theorem setBaud_txframe (s : State) (rate : BitVec 24) : (setBaud rate s).txframe = s.txframe := rfl
@[simp] theorem setBaud_rxbuf (s : State) (rate : BitVec 24) : (setBaud rate s).rxbuf = s.rxbuf := rfl
@[simp] theorem setBaud_params (s : State) (rate : BitVec 24) : (setBaud rate s).params = s.params := rfl
@[simp] theorem setBaud_now (s : State) (rate : BitVec 24) : (setBaud rate s).now = s.now := rfl
@[simp] theorem setBaud_rx (s : State) (rate : BitVec 24) : (setBaud rate s).rx = s.rx := rfl
@[simp] theorem setBaud_txRoom (s : State) (rate : BitVec 24) : (setBaud rate s).txRoom = s.txRoom := rfl
@[simp] theorem setBaud_pending (s : State) (rate : BitVec 24) : (setBaud rate s).pending = s.pending := rfl
@[simp] theorem setBaud_calls (s : State) (rate : BitVec 24) :
    (setBaud rate s).calls = s.calls ++ [.setBaud rate] := rfl
@[simp] theorem setBaud_reads (s : State) (rate : BitVec 24) : (setBaud rate s).reads = s.reads := rfl

/-! `rxAvail` (R62) -/

@[simp] theorem rxAvail_phase (s : State) : (rxAvail s).phase = s.phase := rfl
@[simp] theorem rxAvail_loaded (s : State) : (rxAvail s).loaded = s.loaded := rfl
@[simp] theorem rxAvail_accept (s : State) : (rxAvail s).accept = s.accept := rfl
@[simp] theorem rxAvail_err (s : State) : (rxAvail s).err = s.err := rfl
@[simp] theorem rxAvail_rxdone (s : State) : (rxAvail s).rxdone = s.rxdone := rfl
@[simp] theorem rxAvail_baud (s : State) : (rxAvail s).baud = s.baud := rfl
@[simp] theorem rxAvail_tbyte (s : State) : (rxAvail s).tbyte = s.tbyte := rfl
@[simp] theorem rxAvail_tbrk (s : State) : (rxAvail s).tbrk = s.tbrk := rfl
@[simp] theorem rxAvail_tto (s : State) : (rxAvail s).tto = s.tto := rfl
@[simp] theorem rxAvail_tstartBrk (s : State) : (rxAvail s).tstartBrk = s.tstartBrk := rfl
@[simp] theorem rxAvail_tstartTx (s : State) : (rxAvail s).tstartTx = s.tstartTx := rfl
@[simp] theorem rxAvail_txdata (s : State) : (rxAvail s).txdata = s.txdata := rfl
@[simp] theorem rxAvail_frame (s : State) : (rxAvail s).frame = s.frame := rfl
@[simp] theorem rxAvail_txframe (s : State) : (rxAvail s).txframe = s.txframe := rfl
@[simp] theorem rxAvail_rxbuf (s : State) : (rxAvail s).rxbuf = s.rxbuf := rfl
@[simp] theorem rxAvail_params (s : State) : (rxAvail s).params = s.params := rfl
@[simp] theorem rxAvail_now (s : State) : (rxAvail s).now = s.now := rfl
@[simp] theorem rxAvail_rx (s : State) : (rxAvail s).rx = s.rx := rfl
@[simp] theorem rxAvail_txRoom (s : State) : (rxAvail s).txRoom = s.txRoom := rfl
@[simp] theorem rxAvail_pending (s : State) : (rxAvail s).pending = s.pending := rfl
@[simp] theorem rxAvail_calls (s : State) : (rxAvail s).calls = s.calls ++ [.rxAvail s.rx.length] := rfl
@[simp] theorem rxAvail_reads (s : State) : (rxAvail s).reads = s.reads := rfl

/-! `rxRead` (R63) -/

@[simp] theorem rxRead_phase (s : State) (k : Nat) : (rxRead k s).phase = s.phase := rfl
@[simp] theorem rxRead_loaded (s : State) (k : Nat) : (rxRead k s).loaded = s.loaded := rfl
@[simp] theorem rxRead_accept (s : State) (k : Nat) : (rxRead k s).accept = s.accept := rfl
@[simp] theorem rxRead_err (s : State) (k : Nat) : (rxRead k s).err = s.err := rfl
@[simp] theorem rxRead_rxdone (s : State) (k : Nat) : (rxRead k s).rxdone = s.rxdone := rfl
@[simp] theorem rxRead_baud (s : State) (k : Nat) : (rxRead k s).baud = s.baud := rfl
@[simp] theorem rxRead_tbyte (s : State) (k : Nat) : (rxRead k s).tbyte = s.tbyte := rfl
@[simp] theorem rxRead_tbrk (s : State) (k : Nat) : (rxRead k s).tbrk = s.tbrk := rfl
@[simp] theorem rxRead_tto (s : State) (k : Nat) : (rxRead k s).tto = s.tto := rfl
@[simp] theorem rxRead_tstartBrk (s : State) (k : Nat) : (rxRead k s).tstartBrk = s.tstartBrk := rfl
@[simp] theorem rxRead_tstartTx (s : State) (k : Nat) : (rxRead k s).tstartTx = s.tstartTx := rfl
@[simp] theorem rxRead_txdata (s : State) (k : Nat) : (rxRead k s).txdata = s.txdata := rfl
@[simp] theorem rxRead_frame (s : State) (k : Nat) : (rxRead k s).frame = s.frame := rfl
@[simp] theorem rxRead_txframe (s : State) (k : Nat) : (rxRead k s).txframe = s.txframe := rfl
@[simp] theorem rxRead_rxbuf (s : State) (k : Nat) : (rxRead k s).rxbuf = s.rxbuf := rfl
@[simp] theorem rxRead_params (s : State) (k : Nat) : (rxRead k s).params = s.params := rfl
@[simp] theorem rxRead_now (s : State) (k : Nat) : (rxRead k s).now = s.now := rfl
@[simp] theorem rxRead_rx (s : State) (k : Nat) : (rxRead k s).rx = s.rx.drop k := rfl
@[simp] theorem rxRead_txRoom (s : State) (k : Nat) : (rxRead k s).txRoom = s.txRoom := rfl
@[simp] theorem rxRead_pending (s : State) (k : Nat) : (rxRead k s).pending = s.pending := rfl
@[simp] theorem rxRead_calls (s : State) (k : Nat) : (rxRead k s).calls = s.calls ++ [.rxRead (s.rx.take k)] := rfl
@[simp] theorem rxRead_reads (s : State) (k : Nat) : (rxRead k s).reads = s.reads := rfl

/-! `errorToDone` (R182) -/

@[simp] theorem errorToDone_phase (s : State) (f : BitVec 4) : (errorToDone f s).phase = .done := rfl
@[simp] theorem errorToDone_loaded (s : State) (f : BitVec 4) : (errorToDone f s).loaded = s.loaded := rfl
@[simp] theorem errorToDone_accept (s : State) (f : BitVec 4) : (errorToDone f s).accept = s.accept := rfl
@[simp] theorem errorToDone_err (s : State) (f : BitVec 4) : (errorToDone f s).err = s.err ||| f := rfl
@[simp] theorem errorToDone_rxdone (s : State) (f : BitVec 4) : (errorToDone f s).rxdone = s.rxdone := rfl
@[simp] theorem errorToDone_baud (s : State) (f : BitVec 4) : (errorToDone f s).baud = s.baud := rfl
@[simp] theorem errorToDone_tbyte (s : State) (f : BitVec 4) : (errorToDone f s).tbyte = s.tbyte := rfl
@[simp] theorem errorToDone_tbrk (s : State) (f : BitVec 4) : (errorToDone f s).tbrk = s.tbrk := rfl
@[simp] theorem errorToDone_tto (s : State) (f : BitVec 4) : (errorToDone f s).tto = s.tto := rfl
@[simp] theorem errorToDone_tstartBrk (s : State) (f : BitVec 4) : (errorToDone f s).tstartBrk = s.tstartBrk := rfl
@[simp] theorem errorToDone_tstartTx (s : State) (f : BitVec 4) : (errorToDone f s).tstartTx = s.tstartTx := rfl
@[simp] theorem errorToDone_txdata (s : State) (f : BitVec 4) : (errorToDone f s).txdata = s.txdata := rfl
@[simp] theorem errorToDone_frame (s : State) (f : BitVec 4) : (errorToDone f s).frame = s.frame := rfl
@[simp] theorem errorToDone_txframe (s : State) (f : BitVec 4) : (errorToDone f s).txframe = s.txframe := rfl
@[simp] theorem errorToDone_rxbuf (s : State) (f : BitVec 4) : (errorToDone f s).rxbuf = s.rxbuf := rfl
@[simp] theorem errorToDone_params (s : State) (f : BitVec 4) : (errorToDone f s).params = s.params := rfl
@[simp] theorem errorToDone_now (s : State) (f : BitVec 4) : (errorToDone f s).now = s.now := rfl
@[simp] theorem errorToDone_rx (s : State) (f : BitVec 4) : (errorToDone f s).rx = s.rx := rfl
@[simp] theorem errorToDone_txRoom (s : State) (f : BitVec 4) : (errorToDone f s).txRoom = s.txRoom := rfl
@[simp] theorem errorToDone_pending (s : State) (f : BitVec 4) : (errorToDone f s).pending = s.pending := rfl
@[simp] theorem errorToDone_calls (s : State) (f : BitVec 4) : (errorToDone f s).calls = s.calls := rfl
@[simp] theorem errorToDone_reads (s : State) (f : BitVec 4) : (errorToDone f s).reads = s.reads := rfl

/-! `misuse` (R128) -/

@[simp] theorem misuse_phase (s : State) : (misuse s).phase = .done := rfl
@[simp] theorem misuse_loaded (s : State) : (misuse s).loaded = false := rfl
@[simp] theorem misuse_accept (s : State) : (misuse s).accept = s.accept := rfl
@[simp] theorem misuse_err (s : State) : (misuse s).err = s.err ||| errorState := rfl
@[simp] theorem misuse_rxdone (s : State) : (misuse s).rxdone = s.rxdone := rfl
@[simp] theorem misuse_baud (s : State) : (misuse s).baud = s.baud := rfl
@[simp] theorem misuse_tbyte (s : State) : (misuse s).tbyte = s.tbyte := rfl
@[simp] theorem misuse_tbrk (s : State) : (misuse s).tbrk = s.tbrk := rfl
@[simp] theorem misuse_tto (s : State) : (misuse s).tto = s.tto := rfl
@[simp] theorem misuse_tstartBrk (s : State) : (misuse s).tstartBrk = s.tstartBrk := rfl
@[simp] theorem misuse_tstartTx (s : State) : (misuse s).tstartTx = s.tstartTx := rfl
@[simp] theorem misuse_txdata (s : State) : (misuse s).txdata = s.txdata := rfl
@[simp] theorem misuse_frame (s : State) : (misuse s).frame = s.frame := rfl
@[simp] theorem misuse_txframe (s : State) : (misuse s).txframe = s.txframe := rfl
@[simp] theorem misuse_rxbuf (s : State) : (misuse s).rxbuf = s.rxbuf := rfl
@[simp] theorem misuse_params (s : State) : (misuse s).params = s.params := rfl
@[simp] theorem misuse_now (s : State) : (misuse s).now = s.now := rfl
@[simp] theorem misuse_rx (s : State) : (misuse s).rx = s.rx := rfl
@[simp] theorem misuse_txRoom (s : State) : (misuse s).txRoom = s.txRoom := rfl
@[simp] theorem misuse_pending (s : State) : (misuse s).pending = s.pending := rfl
@[simp] theorem misuse_calls (s : State) : (misuse s).calls = s.calls := rfl
@[simp] theorem misuse_reads (s : State) : (misuse s).reads = s.reads := rfl

/-! `clearTransaction` (R154, R156) -/

@[simp] theorem clearTransaction_phase (s : State) : (clearTransaction s).phase = .idle := rfl
@[simp] theorem clearTransaction_loaded (s : State) : (clearTransaction s).loaded = s.loaded := rfl
@[simp] theorem clearTransaction_accept (s : State) : (clearTransaction s).accept = s.accept := rfl
@[simp] theorem clearTransaction_err (s : State) : (clearTransaction s).err = 0 := rfl
@[simp] theorem clearTransaction_rxdone (s : State) : (clearTransaction s).rxdone = false := rfl
@[simp] theorem clearTransaction_baud (s : State) : (clearTransaction s).baud = s.baud := rfl
@[simp] theorem clearTransaction_tbyte (s : State) : (clearTransaction s).tbyte = s.tbyte := rfl
@[simp] theorem clearTransaction_tbrk (s : State) : (clearTransaction s).tbrk = s.tbrk := rfl
@[simp] theorem clearTransaction_tto (s : State) : (clearTransaction s).tto = 0 := rfl
@[simp] theorem clearTransaction_tstartBrk (s : State) : (clearTransaction s).tstartBrk = 0 := rfl
@[simp] theorem clearTransaction_tstartTx (s : State) : (clearTransaction s).tstartTx = 0 := rfl
@[simp] theorem clearTransaction_txdata (s : State) : (clearTransaction s).txdata = s.txdata := rfl
@[simp] theorem clearTransaction_frame (s : State) : (clearTransaction s).frame = s.frame := rfl
@[simp] theorem clearTransaction_txframe (s : State) : (clearTransaction s).txframe = s.txframe := rfl
@[simp] theorem clearTransaction_rxbuf (s : State) : (clearTransaction s).rxbuf = padTo 12 [] := rfl
@[simp] theorem clearTransaction_params (s : State) : (clearTransaction s).params = s.params := rfl
@[simp] theorem clearTransaction_now (s : State) : (clearTransaction s).now = s.now := rfl
@[simp] theorem clearTransaction_rx (s : State) : (clearTransaction s).rx = s.rx := rfl
@[simp] theorem clearTransaction_txRoom (s : State) : (clearTransaction s).txRoom = s.txRoom := rfl
@[simp] theorem clearTransaction_pending (s : State) : (clearTransaction s).pending = s.pending := rfl
@[simp] theorem clearTransaction_calls (s : State) : (clearTransaction s).calls = s.calls := rfl
@[simp] theorem clearTransaction_reads (s : State) : (clearTransaction s).reads = s.reads := rfl

/-! `latch` (R126, R156) -/

@[simp] theorem latch_phase (s : State) (id : BitVec 6) (len : BitVec 4) (mode : ChecksumMode) (dir : Direction) :
    (latch id len mode dir s).phase = .idle := rfl
@[simp] theorem latch_loaded (s : State) (id : BitVec 6) (len : BitVec 4) (mode : ChecksumMode) (dir : Direction) :
    (latch id len mode dir s).loaded = true := rfl
@[simp] theorem latch_accept (s : State) (id : BitVec 6) (len : BitVec 4) (mode : ChecksumMode) (dir : Direction) :
    (latch id len mode dir s).accept = true := rfl
@[simp] theorem latch_err (s : State) (id : BitVec 6) (len : BitVec 4) (mode : ChecksumMode) (dir : Direction) :
    (latch id len mode dir s).err = 0 := rfl
@[simp] theorem latch_rxdone (s : State) (id : BitVec 6) (len : BitVec 4) (mode : ChecksumMode) (dir : Direction) :
    (latch id len mode dir s).rxdone = false := rfl
@[simp] theorem latch_baud (s : State) (id : BitVec 6) (len : BitVec 4) (mode : ChecksumMode) (dir : Direction) :
    (latch id len mode dir s).baud = s.baud := rfl
@[simp] theorem latch_tbyte (s : State) (id : BitVec 6) (len : BitVec 4) (mode : ChecksumMode) (dir : Direction) :
    (latch id len mode dir s).tbyte = s.tbyte := rfl
@[simp] theorem latch_tbrk (s : State) (id : BitVec 6) (len : BitVec 4) (mode : ChecksumMode) (dir : Direction) :
    (latch id len mode dir s).tbrk = s.tbrk := rfl
@[simp] theorem latch_tto (s : State) (id : BitVec 6) (len : BitVec 4) (mode : ChecksumMode) (dir : Direction) :
    (latch id len mode dir s).tto = 0 := rfl
@[simp] theorem latch_tstartBrk (s : State) (id : BitVec 6) (len : BitVec 4) (mode : ChecksumMode) (dir : Direction) :
    (latch id len mode dir s).tstartBrk = 0 := rfl
@[simp] theorem latch_tstartTx (s : State) (id : BitVec 6) (len : BitVec 4) (mode : ChecksumMode) (dir : Direction) :
    (latch id len mode dir s).tstartTx = 0 := rfl
@[simp] theorem latch_txdata (s : State) (id : BitVec 6) (len : BitVec 4) (mode : ChecksumMode) (dir : Direction) :
    (latch id len mode dir s).txdata = s.txdata := rfl
@[simp] theorem latch_frame (s : State) (id : BitVec 6) (len : BitVec 4) (mode : ChecksumMode) (dir : Direction) :
    (latch id len mode dir s).frame = assembleFrame s.params (s.payload len) id len mode dir := rfl
@[simp] theorem latch_txframe (s : State) (id : BitVec 6) (len : BitVec 4) (mode : ChecksumMode) (dir : Direction) :
    (latch id len mode dir s).txframe = padTo 12 (outgoingBytes id (s.payload len) mode dir) := rfl
@[simp] theorem latch_rxbuf (s : State) (id : BitVec 6) (len : BitVec 4) (mode : ChecksumMode) (dir : Direction) :
    (latch id len mode dir s).rxbuf = padTo 12 [] := rfl
@[simp] theorem latch_params (s : State) (id : BitVec 6) (len : BitVec 4) (mode : ChecksumMode) (dir : Direction) :
    (latch id len mode dir s).params = s.params := rfl
@[simp] theorem latch_now (s : State) (id : BitVec 6) (len : BitVec 4) (mode : ChecksumMode) (dir : Direction) :
    (latch id len mode dir s).now = s.now := rfl
@[simp] theorem latch_rx (s : State) (id : BitVec 6) (len : BitVec 4) (mode : ChecksumMode) (dir : Direction) :
    (latch id len mode dir s).rx = s.rx := rfl
@[simp] theorem latch_txRoom (s : State) (id : BitVec 6) (len : BitVec 4) (mode : ChecksumMode) (dir : Direction) :
    (latch id len mode dir s).txRoom = s.txRoom := rfl
@[simp] theorem latch_pending (s : State) (id : BitVec 6) (len : BitVec 4) (mode : ChecksumMode) (dir : Direction) :
    (latch id len mode dir s).pending = s.pending := rfl
@[simp] theorem latch_calls (s : State) (id : BitVec 6) (len : BitVec 4) (mode : ChecksumMode) (dir : Direction) :
    (latch id len mode dir s).calls = s.calls := rfl
@[simp] theorem latch_reads (s : State) (id : BitVec 6) (len : BitVec 4) (mode : ChecksumMode) (dir : Direction) :
    (latch id len mode dir s).reads = s.reads := rfl

/-! `breakStarted` (R127) -/

@[simp] theorem breakStarted_phase (s : State) : (breakStarted s).phase = .brk := rfl
@[simp] theorem breakStarted_loaded (s : State) : (breakStarted s).loaded = false := rfl
@[simp] theorem breakStarted_accept (s : State) : (breakStarted s).accept = s.accept := rfl
@[simp] theorem breakStarted_err (s : State) : (breakStarted s).err = s.err := rfl
@[simp] theorem breakStarted_rxdone (s : State) : (breakStarted s).rxdone = s.rxdone := rfl
@[simp] theorem breakStarted_baud (s : State) : (breakStarted s).baud = s.baud := rfl
@[simp] theorem breakStarted_tbyte (s : State) : (breakStarted s).tbyte = s.tbyte := rfl
@[simp] theorem breakStarted_tbrk (s : State) : (breakStarted s).tbrk = s.tbrk := rfl
@[simp] theorem breakStarted_tto (s : State) : (breakStarted s).tto = ttoOf s.params s.frame.len s.tbyte := rfl
@[simp] theorem breakStarted_tstartBrk (s : State) : (breakStarted s).tstartBrk = s.now := rfl
@[simp] theorem breakStarted_tstartTx (s : State) : (breakStarted s).tstartTx = s.now := rfl
@[simp] theorem breakStarted_txdata (s : State) : (breakStarted s).txdata = s.txdata := rfl
@[simp] theorem breakStarted_frame (s : State) : (breakStarted s).frame = s.frame := rfl
@[simp] theorem breakStarted_txframe (s : State) : (breakStarted s).txframe = s.txframe := rfl
@[simp] theorem breakStarted_rxbuf (s : State) : (breakStarted s).rxbuf = s.rxbuf := rfl
@[simp] theorem breakStarted_params (s : State) : (breakStarted s).params = s.params := rfl
@[simp] theorem breakStarted_now (s : State) : (breakStarted s).now = s.now := rfl
@[simp] theorem breakStarted_rx (s : State) : (breakStarted s).rx = s.rx := rfl
@[simp] theorem breakStarted_txRoom (s : State) : (breakStarted s).txRoom = s.txRoom := rfl
@[simp] theorem breakStarted_pending (s : State) : (breakStarted s).pending = s.pending := rfl
@[simp] theorem breakStarted_calls (s : State) : (breakStarted s).calls = s.calls := rfl
@[simp] theorem breakStarted_reads (s : State) : (breakStarted s).reads = s.reads := rfl

/-! `configure` (R155) -/

@[simp] theorem configure_phase (s : State) (baud : BitVec 24) : (configure baud s).phase = s.phase := rfl
@[simp] theorem configure_loaded (s : State) (baud : BitVec 24) : (configure baud s).loaded = s.loaded := rfl
@[simp] theorem configure_accept (s : State) (baud : BitVec 24) : (configure baud s).accept = s.accept := rfl
@[simp] theorem configure_err (s : State) (baud : BitVec 24) : (configure baud s).err = s.err := rfl
@[simp] theorem configure_rxdone (s : State) (baud : BitVec 24) : (configure baud s).rxdone = s.rxdone := rfl
@[simp] theorem configure_baud (s : State) (baud : BitVec 24) : (configure baud s).baud = baud := rfl
@[simp] theorem configure_tbyte (s : State) (baud : BitVec 24) : (configure baud s).tbyte = tbyteOf baud := rfl
@[simp] theorem configure_tbrk (s : State) (baud : BitVec 24) :
    (configure baud s).tbrk = tbrkOf s.params (tbyteOf baud) := rfl
@[simp] theorem configure_tto (s : State) (baud : BitVec 24) : (configure baud s).tto = s.tto := rfl
@[simp] theorem configure_tstartBrk (s : State) (baud : BitVec 24) : (configure baud s).tstartBrk = s.tstartBrk := rfl
@[simp] theorem configure_tstartTx (s : State) (baud : BitVec 24) : (configure baud s).tstartTx = s.tstartTx := rfl
@[simp] theorem configure_txdata (s : State) (baud : BitVec 24) : (configure baud s).txdata = s.txdata := rfl
@[simp] theorem configure_frame (s : State) (baud : BitVec 24) : (configure baud s).frame = s.frame := rfl
@[simp] theorem configure_txframe (s : State) (baud : BitVec 24) : (configure baud s).txframe = s.txframe := rfl
@[simp] theorem configure_rxbuf (s : State) (baud : BitVec 24) : (configure baud s).rxbuf = s.rxbuf := rfl
@[simp] theorem configure_params (s : State) (baud : BitVec 24) : (configure baud s).params = s.params := rfl
@[simp] theorem configure_now (s : State) (baud : BitVec 24) : (configure baud s).now = s.now := rfl
@[simp] theorem configure_rx (s : State) (baud : BitVec 24) : (configure baud s).rx = s.rx := rfl
@[simp] theorem configure_txRoom (s : State) (baud : BitVec 24) : (configure baud s).txRoom = s.txRoom := rfl
@[simp] theorem configure_pending (s : State) (baud : BitVec 24) : (configure baud s).pending = s.pending := rfl
@[simp] theorem configure_calls (s : State) (baud : BitVec 24) : (configure baud s).calls = s.calls := rfl
@[simp] theorem configure_reads (s : State) (baud : BitVec 24) : (configure baud s).reads = s.reads := rfl

/-! `arrive` (R37, R76) -/

@[simp] theorem arrive_phase (s : State) (e : Event) (rest : List Event) : (arrive e rest s).phase = s.phase := rfl
@[simp] theorem arrive_loaded (s : State) (e : Event) (rest : List Event) : (arrive e rest s).loaded = s.loaded := rfl
@[simp] theorem arrive_accept (s : State) (e : Event) (rest : List Event) : (arrive e rest s).accept = s.accept := rfl
@[simp] theorem arrive_err (s : State) (e : Event) (rest : List Event) : (arrive e rest s).err = s.err := rfl
@[simp] theorem arrive_rxdone (s : State) (e : Event) (rest : List Event) : (arrive e rest s).rxdone = s.rxdone := rfl
@[simp] theorem arrive_baud (s : State) (e : Event) (rest : List Event) : (arrive e rest s).baud = s.baud := rfl
@[simp] theorem arrive_tbyte (s : State) (e : Event) (rest : List Event) : (arrive e rest s).tbyte = s.tbyte := rfl
@[simp] theorem arrive_tbrk (s : State) (e : Event) (rest : List Event) : (arrive e rest s).tbrk = s.tbrk := rfl
@[simp] theorem arrive_tto (s : State) (e : Event) (rest : List Event) : (arrive e rest s).tto = s.tto := rfl
@[simp] theorem arrive_tstartBrk (s : State) (e : Event) (rest : List Event) :
    (arrive e rest s).tstartBrk = s.tstartBrk := rfl
@[simp] theorem arrive_tstartTx (s : State) (e : Event) (rest : List Event) :
    (arrive e rest s).tstartTx = s.tstartTx := rfl
@[simp] theorem arrive_txdata (s : State) (e : Event) (rest : List Event) : (arrive e rest s).txdata = s.txdata := rfl
@[simp] theorem arrive_frame (s : State) (e : Event) (rest : List Event) : (arrive e rest s).frame = s.frame := rfl
@[simp] theorem arrive_txframe (s : State) (e : Event) (rest : List Event) :
    (arrive e rest s).txframe = s.txframe := rfl
@[simp] theorem arrive_rxbuf (s : State) (e : Event) (rest : List Event) : (arrive e rest s).rxbuf = s.rxbuf := rfl
@[simp] theorem arrive_params (s : State) (e : Event) (rest : List Event) : (arrive e rest s).params = s.params := rfl
@[simp] theorem arrive_now (s : State) (e : Event) (rest : List Event) :
    (arrive e rest s).now = s.now + BitVec.ofNat 32 e.dt := rfl
@[simp] theorem arrive_rx (s : State) (e : Event) (rest : List Event) : (arrive e rest s).rx = e.rx := rfl
@[simp] theorem arrive_txRoom (s : State) (e : Event) (rest : List Event) : (arrive e rest s).txRoom = e.txRoom := rfl
@[simp] theorem arrive_pending (s : State) (e : Event) (rest : List Event) : (arrive e rest s).pending = rest := rfl
@[simp] theorem arrive_calls (s : State) (e : Event) (rest : List Event) : (arrive e rest s).calls = s.calls := rfl
@[simp] theorem arrive_reads (s : State) (e : Event) (rest : List Event) : (arrive e rest s).reads = s.reads := rfl

end Sys2Proof.Machine
end

