-- ==== Sys2Proof/Laws/Ops.lean ====
section
/-! SUPPORT. Laws/Ops.lean: for each shared operation, all it can do: the cases of the transport's TxWrite, of the latch
and of the three step functions, and the access a step performs. -/

namespace Sys2Proof.Machine

@[simp] theorem inFlight_eq_false (s : State) : s.inFlight = false ↔ s.phase = .idle ∨ s.phase = .done := by
  cases h : s.phase <;> simp [State.inFlight, h]

@[simp] theorem inFlight_eq_true (s : State) : s.inFlight = true ↔ s.phase = .brk ∨ s.phase = .body := by
  cases h : s.phase <;> simp [State.inFlight, h]

@[simp] theorem legalLen_eq_true (len : BitVec 4) : legalLen len = true ↔ len.toNat ≤ 8 :=
  decide_eq_true_iff

@[simp] theorem legalLen_eq_false (len : BitVec 4) : legalLen len = false ↔ 8 < len.toNat :=
  decide_eq_false_iff_not.trans Nat.not_le

@[simp] theorem legalBaud_eq_true (b : BitVec 24) : legalBaud b = true ↔ 2 ≤ b.toNat ∧ b.toNat ≤ 10000000 := by
  rw [legalBaud, Bool.and_eq_true, decide_eq_true_iff, decide_eq_true_iff, baudMin, baudMax]

@[simp] theorem andThen_next (s : State) (f : State → Host.Outcome State Fault Refusal) :
    andThen (.next s) f = f s := rfl

@[simp] theorem andThen_refused (r : Refusal) (f : State → Host.Outcome State Fault Refusal) :
    andThen (.refused r) f = .refused r := rfl

/-- R11: elapsed time as a number. -/
theorem elapsed_toNat (s : State) (ref : Word) :
    (s.elapsed ref).toNat = (s.now.toNat + 2 ^ 32 - ref.toNat) % 2 ^ 32 := by
  have := ref.isLt
  rw [State.elapsed, BitVec.toNat_sub]
  congr 1
  omega

/-- R122. -/
theorem breakComplete_iff (s : State) :
    s.breakComplete = true ↔ s.tbrk.toNat < (s.elapsed s.tstartBrk).toNat := decide_eq_true_iff

/-- R131. -/
theorem timedOut_iff (s : State) : s.timedOut = true ↔ s.tto.toNat < (s.elapsed s.tstartTx).toNat := decide_eq_true_iff

/-- R122. -/
theorem breakComplete_eq_false_iff (s : State) :
    s.breakComplete = false ↔ (s.elapsed s.tstartBrk).toNat ≤ s.tbrk.toNat :=
  decide_eq_false_iff_not.trans Nat.not_lt

/-- R131. -/
theorem timedOut_eq_false_iff (s : State) : s.timedOut = false ↔ (s.elapsed s.tstartTx).toNat ≤ s.tto.toNat :=
  decide_eq_false_iff_not.trans Nat.not_lt

/-- R123: nothing of TTO is lost in its register. -/
theorem ttoOf_toNat (p : Params) (len : BitVec 4) (tbyte : Word) :
    (ttoOf p len tbyte).toNat = min (p.timeoutMult.toNat * (len.toNat + 5) * tbyte.toNat) (2 ^ 31 - 1) := by
  rw [ttoOf, BitVec.toNat_ofNat, Nat.mod_eq_of_lt]
  · rfl
  · exact Nat.lt_of_le_of_lt (Nat.min_le_right _ _) (by decide)

/-- R121, R29: TBYTE of a legal rate. -/
theorem tbyteOf_toNat {b : BitVec 24} (h : 2 ≤ b.toNat) :
    (tbyteOf b).toNat = 10000000 / b.toNat ∧ 10000000 / b.toNat ≤ 5000000 := by
  have hle : 10000000 / b.toNat ≤ 5000000 := Nat.div_le_div_left h (by decide)
  refine ⟨?_, hle⟩
  rw [tbyteOf, BitVec.toNat_ofNat]
  exact Nat.mod_eq_of_lt (Nat.lt_of_le_of_lt hle (by decide))

/-- R122: TBRK of a legal rate. -/
theorem tbrkOf_toNat (p : Params) {tbyte : Word} (h : tbyte.toNat ≤ 5000000) :
    (tbrkOf p tbyte).toNat = p.breakMult.toNat * tbyte.toNat := by
  have hp := p.breakMult.isLt
  have hm : p.breakMult.toNat * tbyte.toNat ≤ 255 * 5000000 := Nat.mul_le_mul (by omega) h
  rw [tbrkOf, BitVec.toNat_ofNat]
  exact Nat.mod_eq_of_lt (by omega)

/-- R125: a legal LEN leaves room for LEN + 4 in four bits. -/
theorem len_add_four {len : BitVec 4} (h : len.toNat ≤ 8) : (len + 4).toNat = len.toNat + 4 := by
  rw [BitVec.toNat_add]
  exact Nat.mod_eq_of_lt (Nat.lt_of_le_of_lt (Nat.add_le_add_right h 4) (by decide))

/-- R125: TXLEN of a legal LEN. -/
theorem txlenOf_toNat {len : BitVec 4} (h : len.toNat ≤ 8) (dir : Direction) :
    (txlenOf len dir).toNat = if dir = .write then len.toNat + 4 else 3 := by
  cases dir
  · exact len_add_four h
  · rfl

/-- R125: RXLEN of a legal LEN. -/
theorem rxlenOf_toNat (p : Params) {len : BitVec 4} (h : len.toNat ≤ 8) (dir : Direction) :
    (rxlenOf p len dir).toNat = if dir = .write ∧ p.writeEchoScope = .header then 3 else len.toNat + 4 := by
  cases dir
  · cases hs : p.writeEchoScope
    · simpa [rxlenOf, hs] using len_add_four h
    · simp [rxlenOf, hs]
  · exact len_add_four h

/-- R126: the data LOAD copies. -/
theorem payload_eq (s : State) (len : BitVec 4) : s.payload len = s.txdata.toList.take len.toNat := by
  simp [State.payload, slice]

theorem length_payload (s : State) {len : BitVec 4} (h : len.toNat ≤ 8) : (s.payload len).length = len.toNat := by
  simp [State.payload, h]

/-- R129: the post-break bytes. -/
theorem bodyBytes_eq (s : State) : s.bodyBytes = (s.txframe.toList.take s.frame.txlen.toNat).drop 1 :=
  slice_eq_drop_take _ _ _

/-- R61: "at most 11 post-break bytes". -/
theorem length_bodyBytes_le (s : State) : s.bodyBytes.length ≤ 11 := by
  simp [State.bodyBytes]

/-- R61: what the port does with bytes it can take. -/
theorem txWrite_fits {bytes : List Byte} {s : State} (h : bytes.length ≤ s.txRoom) :
    txWrite bytes s = .next { s with txRoom := s.txRoom - bytes.length, calls := s.calls ++ [.txWrite bytes] } := by
  simp [txWrite, h, State.call]

/-- R61, U2: and with bytes it cannot take. -/
theorem txWrite_full {bytes : List Byte} {s : State} (h : s.txRoom < bytes.length) :
    txWrite bytes s = .refused .transportFull := by
  simp [txWrite, Nat.not_le.mpr h]

/-- R127: what a started break leaves. -/
def afterStartBreak (s : State) : State :=
  { s with
    phase := .brk, loaded := false, tstartBrk := s.now, tstartTx := s.now,
    tto := ttoOf s.params s.frame.len s.tbyte, rx := [], txRoom := s.txRoom - 1,
    calls := s.calls ++ [.rxDiscard, .setBaud (breakRate s.baud), .txWrite [byteAt s.txframe 0]] }

/-- R127: StartBreak in IDLE with a transaction latched and room for the break byte. -/
theorem startBreak_starts {s : State} (hp : s.phase = .idle) (hl : s.loaded = true) (hr : 1 ≤ s.txRoom) :
    startBreak s = .next (afterStartBreak s) := by
  rw [startBreak, if_pos ⟨hp, hl⟩, txWrite_fits (by simpa using hr)]
  simp [afterStartBreak, breakStarted, setBaud, rxDiscard, State.call]

/-- R127, U2: the same without room. -/
theorem startBreak_full {s : State} (hp : s.phase = .idle) (hl : s.loaded = true) (hr : s.txRoom = 0) :
    startBreak s = .refused .transportFull := by
  rw [startBreak, if_pos ⟨hp, hl⟩, txWrite_full (by simp [hr]), andThen_refused]

/-- R127, R128: StartBreak anywhere else. -/
theorem startBreak_misuse {s : State} (h : ¬ (s.phase = .idle ∧ s.loaded = true)) : startBreak s = .next (misuse s) := by
  rw [startBreak, if_neg h]

/-- R129: what a sent body leaves. -/
def afterStepBody (s : State) : State :=
  { s with
    phase := .body, txRoom := s.txRoom - s.bodyBytes.length,
    calls := s.calls ++ [.setBaud s.baud, .txWrite s.bodyBytes] }

/-- R129: StepBody past the threshold, with room for the bytes. -/
theorem stepBodyFn_sends {s : State} (hp : s.phase = .brk) (hb : s.breakComplete = true)
    (hr : s.bodyBytes.length ≤ s.txRoom) : stepBodyFn s = .next (afterStepBody s) := by
  rw [stepBodyFn, if_pos hp, if_pos hb, txWrite_fits (by simpa using hr)]
  simp [afterStepBody, setBaud, State.call]

/-- R129, U2: the same without room. -/
theorem stepBodyFn_full {s : State} (hp : s.phase = .brk) (hb : s.breakComplete = true)
    (hr : s.txRoom < s.bodyBytes.length) : stepBodyFn s = .refused .transportFull := by
  rw [stepBodyFn, if_pos hp, if_pos hb, txWrite_full (by simpa using hr), andThen_refused]

/-- R129: StepBody before the threshold and past the deadline. -/
theorem stepBodyFn_timesOut {s : State} (hp : s.phase = .brk) (hb : s.breakComplete = false)
    (ht : s.timedOut = true) : stepBodyFn s = .next (errorToDone errorTimeout s) := by
  simp [stepBodyFn, hp, hb, ht]

/-- R129: StepBody before both. -/
theorem stepBodyFn_waits {s : State} (hp : s.phase = .brk) (hb : s.breakComplete = false)
    (ht : s.timedOut = false) : stepBodyFn s = .next s := by
  simp [stepBodyFn, hp, hb, ht]

/-- R129, R128: StepBody anywhere else. -/
theorem stepBodyFn_misuse {s : State} (h : s.phase ≠ .brk) : stepBodyFn s = .next (misuse s) := by
  rw [stepBodyFn, if_neg h]

/-- R133: RXBUF once the bytes are read. -/
def receivedBuffer (s : State) : Vector Byte 12 := overlay s.rxbuf 0 (s.rx.take s.frame.rxlen.toNat)

/-- R133: what a completed reception leaves. -/
def afterStepRecv (s : State) : State :=
  { s with
    phase := .done, rxdone := true, rxbuf := receivedBuffer s,
    err := s.err ||| validateResponse s.params s.frame s.txframe (receivedBuffer s),
    rx := s.rx.drop s.frame.rxlen.toNat,
    calls := s.calls ++ [.rxAvail s.rx.length, .rxRead (s.rx.take s.frame.rxlen.toNat)] }

/-- R133: StepRecv with RXLEN bytes available. -/
theorem stepRecvFn_receives {s : State} (hp : s.phase = .body) (hn : s.frame.rxlen.toNat ≤ s.rx.length) :
    stepRecvFn s = .next (afterStepRecv s) := by
  simp [stepRecvFn, hp, hn, receive, afterStepRecv, receivedBuffer, rxAvail, rxRead, State.call, errorToDone,
    State.flag]

/-- R133: StepRecv with fewer bytes, past the deadline. -/
theorem stepRecvFn_timesOut {s : State} (hp : s.phase = .body) (hn : s.rx.length < s.frame.rxlen.toNat)
    (ht : s.timedOut = true) : stepRecvFn s = .next (errorToDone errorTimeout (rxAvail s)) := by
  simp [stepRecvFn, hp, Nat.not_le.mpr hn, ht]

/-- R133: StepRecv with fewer bytes, before the deadline. -/
theorem stepRecvFn_waits {s : State} (hp : s.phase = .body) (hn : s.rx.length < s.frame.rxlen.toNat)
    (ht : s.timedOut = false) : stepRecvFn s = .next (rxAvail s) := by
  simp [stepRecvFn, hp, Nat.not_le.mpr hn, ht]

/-- R133, R128: StepRecv anywhere else. -/
theorem stepRecvFn_misuse {s : State} (h : s.phase ≠ .body) : stepRecvFn s = .next (misuse s) := by
  rw [stepRecvFn, if_neg h]

/-- R127, R128: all StartBreak can do. -/
theorem startBreak_cases (s : State) :
    (s.phase = .idle ∧ s.loaded = true ∧ 1 ≤ s.txRoom ∧ startBreak s = .next (afterStartBreak s)) ∨
    (s.phase = .idle ∧ s.loaded = true ∧ s.txRoom = 0 ∧ startBreak s = .refused .transportFull) ∨
    (¬ (s.phase = .idle ∧ s.loaded = true) ∧ startBreak s = .next (misuse s)) := by
  by_cases h : s.phase = .idle ∧ s.loaded = true
  · rcases Nat.eq_zero_or_pos s.txRoom with hr | hr
    · exact .inr (.inl ⟨h.1, h.2, hr, startBreak_full h.1 h.2 hr⟩)
    · exact .inl ⟨h.1, h.2, hr, startBreak_starts h.1 h.2 hr⟩
  · exact .inr (.inr ⟨h, startBreak_misuse h⟩)

/-- R129, R128: all StepBody can do. -/
theorem stepBodyFn_cases (s : State) :
    (s.phase = .brk ∧ s.breakComplete = true ∧ s.bodyBytes.length ≤ s.txRoom ∧
      stepBodyFn s = .next (afterStepBody s)) ∨
    (s.phase = .brk ∧ s.breakComplete = true ∧ s.txRoom < s.bodyBytes.length ∧
      stepBodyFn s = .refused .transportFull) ∨
    (s.phase = .brk ∧ s.breakComplete = false ∧ s.timedOut = true ∧
      stepBodyFn s = .next (errorToDone errorTimeout s)) ∨
    (s.phase = .brk ∧ s.breakComplete = false ∧ s.timedOut = false ∧ stepBodyFn s = .next s) ∨
    (s.phase ≠ .brk ∧ stepBodyFn s = .next (misuse s)) := by
  by_cases hp : s.phase = .brk
  · cases hb : s.breakComplete
    · cases ht : s.timedOut
      · exact .inr (.inr (.inr (.inl ⟨hp, rfl, rfl, stepBodyFn_waits hp hb ht⟩)))
      · exact .inr (.inr (.inl ⟨hp, rfl, rfl, stepBodyFn_timesOut hp hb ht⟩))
    · rcases Nat.lt_or_ge s.txRoom s.bodyBytes.length with hr | hr
      · exact .inr (.inl ⟨hp, rfl, hr, stepBodyFn_full hp hb hr⟩)
      · exact .inl ⟨hp, rfl, hr, stepBodyFn_sends hp hb hr⟩
  · exact .inr (.inr (.inr (.inr ⟨hp, stepBodyFn_misuse hp⟩)))

/-- R133, R128: all StepRecv can do. -/
theorem stepRecvFn_cases (s : State) :
    (s.phase = .body ∧ s.frame.rxlen.toNat ≤ s.rx.length ∧ stepRecvFn s = .next (afterStepRecv s)) ∨
    (s.phase = .body ∧ s.rx.length < s.frame.rxlen.toNat ∧ s.timedOut = true ∧
      stepRecvFn s = .next (errorToDone errorTimeout (rxAvail s))) ∨
    (s.phase = .body ∧ s.rx.length < s.frame.rxlen.toNat ∧ s.timedOut = false ∧
      stepRecvFn s = .next (rxAvail s)) ∨
    (s.phase ≠ .body ∧ stepRecvFn s = .next (misuse s)) := by
  by_cases hp : s.phase = .body
  · rcases Nat.lt_or_ge s.rx.length s.frame.rxlen.toNat with hn | hn
    · cases ht : s.timedOut
      · exact .inr (.inr (.inl ⟨hp, hn, rfl, stepRecvFn_waits hp hn ht⟩))
      · exact .inr (.inl ⟨hp, hn, rfl, stepRecvFn_timesOut hp hn ht⟩)
    · exact .inl ⟨hp, hn, stepRecvFn_receives hp hn⟩
  · exact .inr (.inr (.inr ⟨hp, stepRecvFn_misuse hp⟩))

/-- R156: all LOAD can do. -/
theorem loadTransaction_cases (id : BitVec 6) (len : BitVec 4) (mode : ChecksumMode) (dir : Direction) (s : State) :
    (8 < len.toNat ∧ loadTransaction id len mode dir s = { s with accept := false }) ∨
    (len.toNat ≤ 8 ∧ s.inFlight = true ∧ loadTransaction id len mode dir s = misuse { s with accept := false }) ∨
    (len.toNat ≤ 8 ∧ s.inFlight = false ∧ loadTransaction id len mode dir s = latch id len mode dir s) := by
  by_cases hl : len.toNat ≤ 8
  · cases hf : s.inFlight
    · exact .inr (.inr ⟨hl, rfl, by simp [loadTransaction, hl, hf]⟩)
    · exact .inr (.inl ⟨hl, rfl, by simp [loadTransaction, hl, hf]⟩)
  · exact .inl ⟨by omega, by simp [loadTransaction, hl]⟩

/-- R152: REQUEST is LOAD when the LOAD is rejected, and StartBreak of the latched transaction when it is accepted. -/
theorem execRequest_cases (id : BitVec 6) (len : BitVec 4) (mode : ChecksumMode) (dir : Direction) (s : State) :
    (8 < len.toNat ∧ execRequest id len mode dir s = .next { s with accept := false }) ∨
    (len.toNat ≤ 8 ∧ s.inFlight = true ∧ execRequest id len mode dir s = .next (misuse { s with accept := false })) ∨
    (len.toNat ≤ 8 ∧ s.inFlight = false ∧ execRequest id len mode dir s = startBreak (latch id len mode dir s)) := by
  rcases loadTransaction_cases id len mode dir s with ⟨h, e⟩ | ⟨h, hf, e⟩ | ⟨h, hf, e⟩
  · exact .inl ⟨h, by simp [execRequest, e]⟩
  · exact .inr (.inl ⟨h, hf, by simp [execRequest, e]⟩)
  · exact .inr (.inr ⟨h, hf, by simp [execRequest, e]⟩)

/-- R156: LOAD of a legal length in IDLE or DONE. -/
theorem exec_load_accepted {id : BitVec 6} {len : BitVec 4} {mode : ChecksumMode} {dir : Direction} {s : State}
    (hl : len.toNat ≤ 8) (hf : s.inFlight = false) :
    exec (.load id len mode dir) s = .next (latch id len mode dir s) := by
  simp [exec, execLoad, loadTransaction, hl, hf]

/-- R152: REQUEST of a legal length in IDLE or DONE. -/
theorem exec_request_accepted {id : BitVec 6} {len : BitVec 4} {mode : ChecksumMode} {dir : Direction} {s : State}
    (hl : len.toNat ≤ 8) (hf : s.inFlight = false) :
    exec (.request id len mode dir) s = startBreak (latch id len mode dir s) := by
  simp [exec, execRequest, loadTransaction, hl, hf]

/-- R153: all POLL can do. -/
theorem execPoll_cases (s : State) :
    (s.phase = .idle ∧ s.loaded = true ∧ execPoll s = startBreak s) ∨
    (s.phase = .brk ∧ execPoll s = stepBodyFn s) ∨ (s.phase = .body ∧ execPoll s = stepRecvFn s) ∨
    ((s.phase = .done ∨ (s.phase = .idle ∧ s.loaded = false)) ∧ execPoll s = .next s) := by
  cases hp : s.phase <;> cases hl : s.loaded <;> simp [execPoll, hp, hl]

/-- R155: all CONFIG can do. -/
theorem execConfig_cases (b : BitVec 24) (s : State) :
    (legalBaud b = true ∧ s.inFlight = false ∧ execConfig b s = .next (configure b s)) ∨
    ((legalBaud b = false ∨ s.inFlight = true) ∧ execConfig b s = .next s) := by
  cases hb : legalBaud b <;> cases hf : s.inFlight <;> simp only [execConfig, hb, hf] <;> simp

/-- R154: what RESET leaves. -/
def afterReset (s : State) : State :=
  { clearTransaction s with loaded := false, accept := false, frame := Frame.zero, txframe := padTo 12 [] }

theorem execReset_eq (s : State) : execReset s = .next (afterReset s) := rfl

/-- All a command can do: RESET's clearing, CONFIG's writing, a rejected length, misuse, a latch, a started break (of a
transaction latched before, or by REQUEST), a sent body, a reception, a timeout, a wait, or nothing. -/
theorem exec_cases {i : Instr} {s t : State} (h : exec i s = .next t) :
    t = s ∨
    (i = .reset ∧ t = afterReset s) ∨
    (∃ b, i = .config b ∧ legalBaud b = true ∧ s.inFlight = false ∧ t = configure b s) ∨
    (∃ id len mode dir, (i = .load id len mode dir ∨ i = .request id len mode dir) ∧
      ((8 < len.toNat ∧ t = { s with accept := false }) ∨
       (len.toNat ≤ 8 ∧ s.inFlight = true ∧ t = misuse { s with accept := false }))) ∨
    (∃ id len mode dir, i = .load id len mode dir ∧ len.toNat ≤ 8 ∧ s.inFlight = false ∧ t = latch id len mode dir s) ∨
    (∃ id len mode dir, i = .request id len mode dir ∧ len.toNat ≤ 8 ∧ s.inFlight = false ∧ 1 ≤ s.txRoom ∧
      t = afterStartBreak (latch id len mode dir s)) ∨
    ((i = .stepBreak ∨ i = .poll) ∧ s.phase = .idle ∧ s.loaded = true ∧ 1 ≤ s.txRoom ∧ t = afterStartBreak s) ∨
    (((i = .stepBreak ∧ ¬ (s.phase = .idle ∧ s.loaded = true)) ∨ (i = .stepBody ∧ s.phase ≠ .brk) ∨
      (i = .stepRecv ∧ s.phase ≠ .body)) ∧ t = misuse s) ∨
    (i.stepsBody ∧ s.phase = .brk ∧
      ((s.breakComplete = true ∧ s.bodyBytes.length ≤ s.txRoom ∧ t = afterStepBody s) ∨
       (s.breakComplete = false ∧ s.timedOut = true ∧ t = errorToDone errorTimeout s))) ∨
    (i.stepsRecv ∧ s.phase = .body ∧
      ((s.frame.rxlen.toNat ≤ s.rx.length ∧ t = afterStepRecv s) ∨
       (s.rx.length < s.frame.rxlen.toNat ∧ s.timedOut = true ∧ t = errorToDone errorTimeout (rxAvail s)) ∨
       (s.rx.length < s.frame.rxlen.toNat ∧ s.timedOut = false ∧ t = rxAvail s))) := by
  have startBreak_next : ∀ {u v : State}, startBreak u = .next v →
      (u.phase = .idle ∧ u.loaded = true ∧ 1 ≤ u.txRoom ∧ v = afterStartBreak u) ∨
      (¬ (u.phase = .idle ∧ u.loaded = true) ∧ v = misuse u) := by
    intro u v e
    rcases startBreak_cases u with ⟨a, b, c, d⟩ | ⟨_, _, _, d⟩ | ⟨a, d⟩ <;> rw [d] at e
    · exact .inl ⟨a, b, c, (Host.Outcome.next.inj e).symm⟩
    · cases e
    · exact .inr ⟨a, (Host.Outcome.next.inj e).symm⟩
  have body_next : stepBodyFn s = .next t → i.stepsBody → s.phase = .brk → t = s ∨ (i.stepsBody ∧ s.phase = .brk ∧
      ((s.breakComplete = true ∧ s.bodyBytes.length ≤ s.txRoom ∧ t = afterStepBody s) ∨
       (s.breakComplete = false ∧ s.timedOut = true ∧ t = errorToDone errorTimeout s))) := by
    intro e hi hp
    rcases stepBodyFn_cases s with ⟨_, b, c, d⟩ | ⟨_, _, _, d⟩ | ⟨_, b, c, d⟩ | ⟨_, _, _, d⟩ | ⟨a, d⟩ <;> rw [d] at e
    · exact .inr ⟨hi, hp, .inl ⟨b, c, (Host.Outcome.next.inj e).symm⟩⟩
    · cases e
    · exact .inr ⟨hi, hp, .inr ⟨b, c, (Host.Outcome.next.inj e).symm⟩⟩
    · exact .inl (Host.Outcome.next.inj e).symm
    · exact absurd hp a
  have recv_next : stepRecvFn s = .next t → i.stepsRecv → s.phase = .body → i.stepsRecv ∧ s.phase = .body ∧
      ((s.frame.rxlen.toNat ≤ s.rx.length ∧ t = afterStepRecv s) ∨
       (s.rx.length < s.frame.rxlen.toNat ∧ s.timedOut = true ∧ t = errorToDone errorTimeout (rxAvail s)) ∨
       (s.rx.length < s.frame.rxlen.toNat ∧ s.timedOut = false ∧ t = rxAvail s)) := by
    intro e hi hp
    refine ⟨hi, hp, ?_⟩
    rcases stepRecvFn_cases s with ⟨_, b, d⟩ | ⟨_, b, c, d⟩ | ⟨_, b, c, d⟩ | ⟨a, d⟩ <;> rw [d] at e
    · exact .inl ⟨b, (Host.Outcome.next.inj e).symm⟩
    · exact .inr (.inl ⟨b, c, (Host.Outcome.next.inj e).symm⟩)
    · exact .inr (.inr ⟨b, c, (Host.Outcome.next.inj e).symm⟩)
    · exact absurd hp a
  cases i with
  | nop => exact .inl (Host.Outcome.next.inj h).symm
  | reserved9 => exact .inl (Host.Outcome.next.inj h).symm
  | reservedA => exact .inl (Host.Outcome.next.inj h).symm
  | reservedB => exact .inl (Host.Outcome.next.inj h).symm
  | reservedC => exact .inl (Host.Outcome.next.inj h).symm
  | reservedD => exact .inl (Host.Outcome.next.inj h).symm
  | reservedE => exact .inl (Host.Outcome.next.inj h).symm
  | reservedF => exact .inl (Host.Outcome.next.inj h).symm
  | reset => exact .inr (.inl ⟨rfl, (Host.Outcome.next.inj h).symm⟩)
  | config b =>
    change execConfig b s = .next t at h
    rcases execConfig_cases b s with ⟨hb, hf, e⟩ | ⟨_, e⟩ <;> rw [e] at h
    · exact .inr (.inr (.inl ⟨b, rfl, hb, hf, (Host.Outcome.next.inj h).symm⟩))
    · exact .inl (Host.Outcome.next.inj h).symm
  | load id len mode dir =>
    have h' := (Host.Outcome.next.inj h).symm
    iterate 3 right
    rcases loadTransaction_cases id len mode dir s with ⟨a, e⟩ | ⟨a, hf, e⟩ | ⟨a, hf, e⟩ <;> rw [e] at h'
    · exact .inl ⟨id, len, mode, dir, .inl rfl, .inl ⟨a, h'⟩⟩
    · exact .inl ⟨id, len, mode, dir, .inl rfl, .inr ⟨a, hf, h'⟩⟩
    · exact .inr (.inl ⟨id, len, mode, dir, rfl, a, hf, h'⟩)
  | request id len mode dir =>
    change execRequest id len mode dir s = .next t at h
    iterate 3 right
    rcases execRequest_cases id len mode dir s with ⟨a, e⟩ | ⟨a, hf, e⟩ | ⟨a, hf, e⟩ <;> rw [e] at h
    · exact .inl ⟨id, len, mode, dir, .inr rfl, .inl ⟨a, (Host.Outcome.next.inj h).symm⟩⟩
    · exact .inl ⟨id, len, mode, dir, .inr rfl, .inr ⟨a, hf, (Host.Outcome.next.inj h).symm⟩⟩
    · rcases startBreak_next h with ⟨_, _, c, d⟩ | ⟨c, _⟩
      · exact .inr (.inr (.inl ⟨id, len, mode, dir, rfl, a, hf, c, d⟩))
      · exact absurd ⟨rfl, rfl⟩ c
  | stepBreak =>
    iterate 6 right
    rcases startBreak_next h with ⟨a, b, c, d⟩ | ⟨a, d⟩
    · exact .inl ⟨.inl rfl, a, b, c, d⟩
    · exact .inr (.inl ⟨.inl ⟨rfl, a⟩, d⟩)
  | stepBody =>
    by_cases hp : s.phase = .brk
    · rcases body_next h (.inl rfl) hp with e | e
      · exact .inl e
      · iterate 8 right
        exact .inl e
    · iterate 7 right
      exact .inl ⟨.inr (.inl ⟨rfl, hp⟩), (Host.Outcome.next.inj ((stepBodyFn_misuse hp).symm.trans h)).symm⟩
  | stepRecv =>
    by_cases hp : s.phase = .body
    · iterate 9 right
      exact recv_next h (.inl rfl) hp
    · iterate 7 right
      exact .inl ⟨.inr (.inr ⟨rfl, hp⟩), (Host.Outcome.next.inj ((stepRecvFn_misuse hp).symm.trans h)).symm⟩
  | poll =>
    change execPoll s = .next t at h
    rcases execPoll_cases s with ⟨hp, hl, e⟩ | ⟨hp, e⟩ | ⟨hp, e⟩ | ⟨_, e⟩ <;> rw [e] at h
    · iterate 6 right
      rcases startBreak_next h with ⟨_, _, c, d⟩ | ⟨c, _⟩
      · exact .inl ⟨.inr rfl, hp, hl, c, d⟩
      · exact absurd ⟨hp, hl⟩ c
    · rcases body_next h (.inr rfl) hp with e | e
      · exact .inl e
      · iterate 8 right
        exact .inl e
    · iterate 9 right
      exact recv_next h (.inr rfl) hp
    · exact .inl (Host.Outcome.next.inj h).symm

/-- R128: a command that finds the engine outside the state it requires ORs in ERROR_STATE and no other flag. -/
theorem exec_misuse_err {i : Instr} {s t : State} (h : exec i s = .next t) (hm : isMisuse i s) :
    t.err = s.err ||| errorState := by
  rcases hm with ⟨rfl, hm⟩ | ⟨rfl, hm⟩ | ⟨rfl, hm⟩ | ⟨hi, hm⟩
  · have q : exec .stepBreak s = .next (misuse s) := startBreak_misuse (by rcases hm with h | h <;> simp [h])
    rw [← Host.Outcome.next.inj (q.symm.trans h)]
    rfl
  · have q : exec .stepBody s = .next (misuse s) := stepBodyFn_misuse hm
    rw [← Host.Outcome.next.inj (q.symm.trans h)]
    rfl
  · have q : exec .stepRecv s = .next (misuse s) := stepRecvFn_misuse hm
    rw [← Host.Outcome.next.inj (q.symm.trans h)]
    rfl
  · have hf : s.inFlight = true := (inFlight_eq_true s).mpr hm
    cases i <;> simp only [Instr.isLoad, Instr.isRequest, Bool.false_eq_true, or_self, or_false, false_or,
      legalLen_eq_true] at hi
    case request id len mode dir =>
      have e : exec (.request id len mode dir) s = .next (misuse { s with accept := false }) := by
        simp [exec, execRequest, loadTransaction, hi, hf]
      rw [← Host.Outcome.next.inj (e.symm.trans h)]
      rfl
    case load id len mode dir =>
      have e : exec (.load id len mode dir) s = .next (misuse { s with accept := false }) := by
        simp [exec, execLoad, loadTransaction, hi, hf]
      rw [← Host.Outcome.next.inj (e.symm.trans h)]
      rfl

/-- R50, R57: an access that the register space admits reaches its offset. -/
theorem atOffset_admitted (s : State) {off : Nat} (h : admitted off)
    (f : Nat → Host.Outcome State Fault Refusal) : atOffset (s.params.base + off) 4 s f = f off := by
  obtain ⟨h1, h2⟩ := h
  simp [atOffset, offsetOf, supported, h1, h2]

/-- R52: the offsets at which the map has a register. -/
theorem regAt_eq_some {off : Nat} {r : Reg} : regAt off = some r ↔ r.offset = off := by
  constructor
  · intro h
    simpa using List.find?_some h
  · rintro rfl
    cases r <;> rfl

/-- R12, R55, R150: a step whose next access writes CMD is the decoded command. -/
theorem step_command {s : State} {e : Event} {rest : List Event} {w : Word} (hp : s.pending = e :: rest)
    (ha : e.access = .write s.params.base 4 w) : step s = exec (decodeWord w) (arrive e rest s) := by
  have h := atOffset_admitted (arrive e rest s) (off := 0) (by decide) fun off => hostWrite off w (arrive e rest s)
  simp only [step, hp, ha, perform]
  exact h

/-- A run begins with its first step. -/
theorem run_succ {n : Nat} {s t : State} (h : step s = .next t) : run (n + 1) s = run n t := by
  rw [run, h, andThen_next]

/-- All a step can do: wait, reset, record a read, store to TXDATA or ignore a write, or run a command. -/
theorem step_cases {s t : State} (h : step s = .next t) :
    (s.pending = [] ∧ t = s) ∨
    ∃ e rest, s.pending = e :: rest ∧
      (t = powerOn (arrive e rest s) ∨
       (∃ v, t = { arrive e rest s with reads := s.reads ++ [v] }) ∨
       (∃ d, t = { arrive e rest s with txdata := d }) ∨
       (∃ w, exec (decodeWord w) (arrive e rest s) = .next t)) := by
  cases hp : s.pending with
  | nil =>
    rw [step, hp] at h
    exact .inl ⟨rfl, (Host.Outcome.next.inj h).symm⟩
  | cons e rest =>
    refine .inr ⟨e, rest, rfl, ?_⟩
    rw [step, hp] at h
    change perform e.access (arrive e rest s) = .next t at h
    cases ha : e.access with
    | powerOnReset =>
      rw [ha] at h
      exact .inl (Host.Outcome.next.inj h).symm
    | read addr width =>
      rw [ha] at h
      simp only [perform, atOffset] at h
      split at h
      · cases h
      · split at h
        · exact .inr (.inl ⟨_, (Host.Outcome.next.inj h).symm⟩)
        · cases h
    | write addr width v =>
      rw [ha] at h
      simp only [perform, atOffset] at h
      split at h
      · cases h
      · split at h
        · simp only [hostWrite] at h
          split at h
          · exact .inr (.inr (.inr ⟨v, h⟩))
          · next r _ _ =>
            refine .inr (.inr (.inl ?_))
            rw [← Host.Outcome.next.inj h]
            cases r <;> exact ⟨_, rfl⟩
          · exact .inr (.inr (.inl ⟨(arrive e rest s).txdata, (Host.Outcome.next.inj h).symm⟩))
        · cases h

end Sys2Proof.Machine
end

