-- ==== Sys2Proof/Laws/Run.lean ====
section
/-! SUPPORT. Laws/Run.lean: runs of a few steps, the steps that POLL and that store a TXDATA word, and the two words of
TXDATA (R38, R56). -/

namespace Sys2Proof.Machine

theorem run_two {s t u : State} (h1 : step s = .next t) (h2 : step t = .next u) : run 2 s = .next u :=
  (run_succ (n := 1) h1).trans (run_succ (n := 0) h2)

theorem run_three {s t u v : State} (h1 : step s = .next t) (h2 : step t = .next u) (h3 : step u = .next v) :
    run 3 s = .next v :=
  (run_succ (n := 2) h1).trans (run_two h2 h3)

/-- R80: the word of POLL. -/
theorem decodeWord_poll : decodeWord 0x00000002#32 = .poll := by decide

/-- R153: a step whose next access writes the word of POLL. -/
theorem step_poll {s : State} {e : Event} {rest : List Event} (hp : s.pending = e :: rest)
    (ha : e.access = .write s.params.base 4 0x00000002#32) : step s = execPoll (arrive e rest s) := by
  rw [step_command hp ha, decodeWord_poll]
  rfl

/-- R55: a step whose next access writes TXDATA0 or TXDATA1. -/
theorem step_store {s : State} {e : Event} {rest : List Event} {j : Fin 2} {w : Word} (hp : s.pending = e :: rest)
    (ha : e.access = .write (s.params.base + (0x20 + 4 * j.val)) 4 w) :
    step s = .next { arrive e rest s with txdata := storeBufferWord s.txdata j.val w } := by
  have h := atOffset_admitted (arrive e rest s) (off := 0x20 + 4 * j.val) ⟨by rw [blockBytes]; omega, by omega⟩
    fun off => hostWrite off w (arrive e rest s)
  simp only [step, hp, ha, perform]
  refine Eq.trans h ?_
  match j with
  | 0 => rfl
  | 1 => rfl

/-- R56: a byte of a word. -/
theorem bufferWord_byte {n : Nat} (v : Vector Byte n) (k : Nat) {i : Nat} (h : i < 4) :
    (bufferWord v k).extractLsb' (8 * i) 8 = byteAt v (4 * k + i) := by
  apply BitVec.eq_of_getLsbD_eq
  intro b hb
  rcases (by omega : i = 0 ∨ i = 1 ∨ i = 2 ∨ i = 3) with rfl | rfl | rfl | rfl
  all_goals simp only [bufferWord, BitVec.getLsbD_extractLsb', BitVec.getLsbD_append, hb]
  · simp [hb]
  · simp [hb, show ¬ 8 + b < 8 by omega]
  · simp [hb, show ¬ 16 + b < 8 by omega, show ¬ 16 + b - 8 < 8 by omega, show 16 + b - 8 - 8 = b by omega]
  · simp [show ¬ 24 + b < 8 by omega, show ¬ 24 + b - 8 < 8 by omega, show ¬ 24 + b - 8 - 8 < 8 by omega,
      show 24 + b - 8 - 8 - 8 = b by omega]

/-- R38, R56: a byte of a buffer in which word `k` has been written. -/
theorem byteAt_storeBufferWord {n : Nat} (v : Vector Byte n) {k i : Nat} (w : Word) (hk : 4 * k + 4 ≤ n) (hi : i < n) :
    byteAt (storeBufferWord v k w) i = if i / 4 = k then w.extractLsb' (8 * (i % 4)) 8 else byteAt v i := by
  rw [storeBufferWord, byteAt_overlay v _ (by omega) hi]
  by_cases h : i / 4 = k
  · rw [if_pos h, if_pos ⟨by omega, by simp; omega⟩, show i - 4 * k = i % 4 by omega]
    rcases (by omega : i % 4 = 0 ∨ i % 4 = 1 ∨ i % 4 = 2 ∨ i % 4 = 3) with e | e | e | e <;> rw [e] <;> rfl
  · rw [if_neg h, if_neg (by simp; omega)]

end Sys2Proof.Machine
end

