-- ==== Sys2Proof/Tests/Slice0.lean ====
section
/-! SUPPORT. Tests/Slice0.lean: tests whose expected results stand in spec/95_test_vectors.md or are worked by hand from the
rule cited, and for each obligation a state and operands that meet its hypotheses. -/

namespace Sys2Proof.Tests

open Sys2Proof Sys2Proof.Machine

/-! ### Helpers: spec/95 section 1.2, as states -/

/-- Two data bytes written; nothing latched. -/
def idle : State := { State.reset with txdata := padTo 8 [0x01, 0x02], now := 900 }

/-- `LOAD 0x10, 2, CLASSIC, WRITE` of these bytes. -/
def latched : State :=
  { idle with
    loaded := true, accept := true, frame := ⟨0x50, 2, .classic, .write, 0xFC, 6, 6⟩,
    txframe := padTo 12 [0x00, 0x55, 0x50, 0x01, 0x02, 0xFC] }

/-- The break started at 1000. -/
def inBreak : State :=
  { latched with
    phase := .brk, loaded := false, now := 1000, tstartBrk := 1000, tstartTx := 1000, tto := 7280,
    calls := [.rxDiscard, .setBaud 9600, .txWrite [0x00]] }

/-- The body sent at 2041. -/
def inBody : State :=
  { inBreak with
    phase := .body, now := 2041,
    calls := inBreak.calls ++ [.setBaud 19200, .txWrite [0x55, 0x50, 0x01, 0x02, 0xFC]] }

/-- The healthy echo read. -/
def done : State := { inBody with phase := .done, rxdone := true, rxbuf := inBody.txframe }

/-- `REQUEST 0x10, 1, ENHANCED, READ` in BODY (spec/95 section 1.4). -/
def readInBody : State :=
  { inBody with
    frame := ⟨0x50, 1, .enhanced, .read, 0x00, 5, 3⟩, txframe := padTo 12 [0x00, 0x55, 0x50], tto := 6240 }

/-- A 32-bit access `dt` microseconds on, with `rx` in the receive buffer. -/
def event (dt : Nat) (rx : List Byte) (a : Access) : Event := ⟨dt, rx, 11, a⟩

/-- A write of `w` to CMD at BASE 0. -/
def command (dt : Nat) (rx : List Byte) (w : Word) : Event := event dt rx (.write 0 4 w)

/-- One step with one pending access. -/
def stepOn (s : State) (e : Event) : Host.Outcome State Fault Refusal := step { s with pending := [e] }

/-- What is seen of an outcome that is a next state. -/
def seen {α : Type} (f : State → α) : Host.Outcome State Fault Refusal → Option α
  | .next t => some (f t)
  | .fault _ => none
  | .refused _ => none

def faultOf : Host.Outcome State Fault Refusal → Option Fault
  | .next _ => none
  | .fault r => some r
  | .refused _ => none

def refusalOf : Host.Outcome State Fault Refusal → Option Refusal
  | .next _ => none
  | .fault _ => none
  | .refused r => some r

/-- STATUS and the calls this step added. -/
def statusAndCalls (s : State) (o : Host.Outcome State Fault Refusal) : Option (Word × List Call) :=
  seen (fun t => (t.status, t.calls.drop s.calls.length)) o

/-! ### WellFormed refuses each illegal operand (R86) -/

theorem test_wellFormed_request_len9 : Instr.wellFormed (.request 0x10 9 .classic .write) = false := by decide
theorem test_wellFormed_load_len15 : Instr.wellFormed (.load 0x10 15 .classic .write) = false := by decide
theorem test_wellFormed_config_1 : Instr.wellFormed (.config 1) = false := by decide
theorem test_wellFormed_config_10000001 : Instr.wellFormed (.config 10000001) = false := by decide
theorem test_wellFormed_bounds :
    Instr.wellFormed (.load 0x3F 8 .enhanced .read) = true ∧ Instr.wellFormed (.config 2) = true ∧
      Instr.wellFormed (.config 10000000) = true := by decide

/-! ### Decoding: words written out from R80 and spec/95 section 2.7 -/

-- 0001 | ID 010000 | LEN 0010 | MODE 0 | DIR 0 | 0..., the fields from bit 0 upward
theorem test_decode_request :
    decodeWord (0b0000000000000000_0_0_0010_010000_0001#32) = .request 0x10 2 .classic .write := by decide
theorem test_decode_request_id23 : decodeWord 0x00005631#32 = .request 0x23 5 .enhanced .write := by decide
theorem test_decode_request_id3C : decodeWord 0x0000A3C1#32 = .request 0x3C 8 .classic .read := by decide
theorem test_decode_request_ignored : decodeWord 0xFFFF0901#32 = .request 0x10 2 .classic .write := by decide
theorem test_decode_request_illegal : decodeWord 0x00003D01#32 = .request 0x10 15 .classic .write := by decide
theorem test_decode_load : decodeWord 0x00008A05#32 = .load 0x20 2 .classic .read := by decide
-- 0100 | 0000 ignored | BAUD 9600 = 0x002580
theorem test_decode_config :
    decodeWord (0b000000000010010110000000_0000_0100#32) = .config 9600 := by decide
theorem test_decode_config_ignored : decodeWord 0x002580F4#32 = .config 9600 := by decide
theorem test_decode_nop : decodeWord 0x00000000#32 = .nop := by decide
theorem test_decode_poll : decodeWord 0xFFFFFFF2#32 = .poll := by decide
theorem test_decode_reset : decodeWord 0x00000003#32 = .reset := by decide
theorem test_decode_steps :
    decodeWord 0x6#32 = .stepBreak ∧ decodeWord 0x7#32 = .stepBody ∧ decodeWord 0x8#32 = .stepRecv := by decide
theorem test_decode_reserved :
    [0x9#32, 0xA#32, 0xB#32, 0xC#32, 0xD#32, 0xE#32, 0xF#32].map decodeWord =
      [.reserved9, .reservedA, .reservedB, .reservedC, .reservedD, .reservedE, .reservedF] := by decide
theorem test_encode :
    encode (.request 0x3D 0 .enhanced .write) = 0x000043D1#32 ∧ encode (.load 0x10 1 .enhanced .read) = 0x0000C505#32 ∧
      encode (.config 10000000) = 0x98968004#32 ∧ encode .stepRecv = 0x00000008#32 := by decide
theorem test_decode_bytes_little_endian :
    decode [0x01, 0x09, 0x00, 0x00, 0x77] = .ok (.request 0x10 2 .classic .write, [0x77]) := by rfl
theorem test_decode_truncated : decode [0x01, 0x09, 0x00] = .error (.truncated 3) := by rfl
theorem test_decodeTableWord : decodeTableWord 32 0x00000901 = some (.request 0x10 2 .classic .write) := by decide
theorem test_withFetchWord :
    seen State.status (step (State.reset.withFetchWord 32 0x0000C505)) = some 0x108#32 := by decide

/-! ### Commands, one step each (spec/95 sections 1.2 to 1.5 and 2.6) -/

theorem test_nop_in_body : statusAndCalls inBody (stepOn inBody (command 9 [] 0x0)) = some (0x00A, []) := by decide

theorem test_request_starts_break :
    statusAndCalls idle (stepOn idle (command 100 [0x77] 0x00000901)) =
      some (0x009, [.rxDiscard, .setBaud 9600, .txWrite [0x00]]) := by decide
theorem test_request_registers :
    seen (fun t => [Reg.frame, .txframe0, .txframe1, .tto, .tstartBrk, .tstartTx].map t.readReg)
      (stepOn idle (command 100 [] 0x00000901)) =
      some [0x66FC0250, 0x01505500, 0x0000FC02, 0x1C70, 0x3E8, 0x3E8] := by decide

theorem test_poll_at_threshold : statusAndCalls inBreak (stepOn inBreak (command 1040 [] 0x2)) = some (0x009, []) := by
  decide
theorem test_poll_at_deadline :
    statusAndCalls inBody (stepOn inBody (command 6239 [0x00, 0x55, 0x50] 0x2)) = some (0x00A, [.rxAvail 3]) := by decide

-- RESET in BREAK: 0x009 to 0x000, no call (section 2.9)
theorem test_reset_in_break : statusAndCalls inBreak (stepOn inBreak (command 500 [] 0x3)) = some (0x000, []) := by decide
theorem test_reset_after_done :
    seen (fun t => [Reg.frame, .txframe0, .rxbuf0, .tto, .tstartBrk, .baud, .txdata0].map t.readReg)
      (stepOn done (command 500 [] 0x3)) = some [0, 0, 0, 0, 0, 0x4B00, 0x0201] := by decide

theorem test_config_9600 :
    seen (fun t => [Reg.baud, .tbyte, .tbrk].map t.readReg) (stepOn done (command 9 [] 0x00258004)) =
      some [0x2580, 0x411, 0x822] := by decide
theorem test_config_in_break_ignored :
    seen (fun t => t.readReg .baud) (stepOn inBreak (command 9 [] 0x00258004)) = some 0x4B00 := by decide

-- 20F to 108; FRAME of the read is 0x35003150 (section 1.4)
theorem test_load_after_done :
    seen (fun t => [Reg.status, .frame, .rxbuf0, .tto].map t.readReg) (stepOn done (command 9 [] 0x0000C505)) =
      some [0x108, 0x35003150, 0, 0] := by decide
-- LOAD with LEN 9 in BREAK: 009 to 001
theorem test_load_len9 : statusAndCalls inBreak (stepOn inBreak (command 9 [] 0x00002505)) = some (0x001, []) := by decide

theorem test_stepBreak :
    statusAndCalls latched (stepOn latched (command 100 [] 0x6)) =
      some (0x009, [.rxDiscard, .setBaud 9600, .txWrite [0x00]]) := by decide
theorem test_stepBreak_misuse : statusAndCalls done (stepOn done (command 9 [] 0x6)) = some (0x21F, []) := by decide

theorem test_stepBody_past_threshold :
    statusAndCalls inBreak (stepOn inBreak (command 1041 [] 0x7)) =
      some (0x00A, [.setBaud 19200, .txWrite [0x55, 0x50, 0x01, 0x02, 0xFC]]) := by decide
theorem test_stepBody_misuse : statusAndCalls latched (stepOn latched (command 9 [] 0x7)) = some (0x01F, []) := by decide

-- at 8281 the deadline of 7280 is past (section 1.2, row 8)
theorem test_stepRecv_timeout :
    statusAndCalls inBody (stepOn inBody (command 6240 [0x00, 0x55, 0x50] 0x8)) = some (0x02F, [.rxAvail 3]) := by decide
-- section 1.4: the checksum byte is 0x31, not 0x30
theorem test_stepRecv_checksum :
    seen (fun t => [Reg.status, .rxbuf0, .rxbuf1].map t.readReg)
      (stepOn readInBody (command 659 [0x00, 0x55, 0x50, 0x7F, 0x31] 0x8)) =
      some [0x28F, 0x7F505500, 0x00000031] := by decide

theorem test_reserved_in_done :
    [0x9#32, 0xA#32, 0xB#32, 0xC#32, 0xD#32, 0xE#32, 0xF#32].map (fun w => seen State.status (stepOn done (command 9 [] w))) =
      List.replicate 7 (some 0x20F) := by decide

/-! ### Register space (spec/95 section 2.8) -/

theorem test_read_params :
    seen State.reads (stepOn idle (event 0 [] (.read 0x44 4))) = some [(0x44, 0x080A0202)] := by decide
theorem test_read_reserved : seen State.reads (stepOn idle (event 0 [] (.read 0xFC 4))) = some [(0xFC, 0)] := by decide
theorem test_write_txdata0 :
    seen (fun t => (t.readOffset 0x20, byteAt t.txdata 0, byteAt t.txdata 3))
      (stepOn idle (event 0 [] (.write 0x20 4 0x44332211))) = some (0x44332211, 0x11, 0x44) := by decide
theorem test_write_baud_ignored :
    seen (fun t => t.readOffset 0x08) (stepOn idle (event 0 [] (.write 0x08 4 0x2580))) = some 0x4B00 := by decide
theorem test_narrow_access_refused :
    refusalOf (stepOn idle (event 0 [] (.write 0x20 1 0x11))) = some .unsupportedAccess := by decide
theorem test_outside_faults : faultOf (stepOn idle (event 0 [] (.read 0x100 4))) = some .noSuchRegister := by decide
theorem test_full_transport_refused :
    refusalOf (stepOn idle ⟨100, [], 0, .write 0 4 0x00000901⟩) = some .transportFull := by decide
theorem test_power_on_in_break :
    seen (fun t => [Reg.status, .baud, .tto].map t.readReg) (stepOn inBreak (event 9 [] .powerOnReset)) =
      some [0, 0x4B00, 0] := by decide

/-! ### Codec and timing (spec/95 sections 2.1 to 2.4) -/

theorem test_pid_row2 :
    [0x10, 0x11, 0x12, 0x13, 0x14, 0x15, 0x16, 0x17].map pidOf =
      [0x50, 0x11, 0x92, 0xD3, 0x14, 0x55, 0xD6, 0x97] := by decide
theorem test_checksum_carry :
    computeChecksum 0 [0xFF, 0x02] .classic = 0xFD ∧ computeChecksum 0x50 [0xAF] .enhanced = 0x00 ∧
      computeChecksum 0xA3 [0x11, 0x22, 0x33, 0x44, 0x55] .enhanced = 0x5C := by decide
-- section 1.5, third row: both checks fail
theorem test_both_flags :
    validateResponse Params.default latched.frame latched.txframe (padTo 12 [0x00, 0x55, 0x11, 0x01, 0x03, 0xFC]) = 0xC := by
  decide
-- R11: from 0xFFFFFC00 to 17 the clock wraps
theorem test_elapsed_wraps : State.elapsed { idle with now := 17 } 0xFFFFFC00 = 1041 := by decide
-- section 2.3: `r[0]` is compared only with CHECK_BREAK_ECHO = 1
theorem test_break_echo :
    let r := padTo 12 [0x80, 0x55, 0x50, 0x01, 0x02, 0xFC]
    validateResponse Params.default latched.frame latched.txframe r = 0 ∧
      validateResponse { Params.default with checkBreakEcho := true } latched.frame latched.txframe r = 0x4 := by decide
theorem test_timing_2_baud :
    tbyteOf 2 = 5000000 ∧ tbrkOf Params.default (tbyteOf 2) = 10000000 ∧
      ttoOf { Params.default with timeoutMult := 255 } 8 (tbyteOf 2) = 0x7FFFFFFF := by decide
theorem test_params_header :
    paramsWord { Params.default with writeEchoScope := .header } = 0x081A0202 := by decide
theorem test_break_allowance : breakStartAllowance Params.default 19200 = 102.5 := by
  have h : (tbrkOf Params.default (tbyteOf 19200)).toNat = 1040 := by decide
  have hr : (breakRate 19200).toNat = 9600 := by decide
  rw [breakStartAllowance, breakLowTime, halfRateBit, bitTime, h, hr, clockHz]
  norm_num
-- R209 and program P3: 3120 microseconds for `REQUEST 0x01, 2, ENHANCED, READ`
theorem test_abandon_wait :
    abandonWait { idle with frame := ⟨0xC1, 2, .enhanced, .read, 0, 6, 3⟩ } = 3120 := by decide

/-! ### Assembler (R94, R95) -/

theorem test_parse_request :
    parseLine "  REQUEST 0x10, 2, CLASSIC, WRITE ; scenario 1" = some (.cmd (.request 0x10 2 .classic .write)) := by
  decide
theorem test_parse_len9_refused : parseLine "LOAD 0x10, 9, CLASSIC, WRITE" = none := by decide
theorem test_write_frame_accesses :
    (AsmLine.writeFrame 0x23 .enhanced [0x11, 0x22, 0x33, 0x44, 0x55]).accesses 0 1 =
      [.write 0x20 4 0x44332211, .write 0x24 4 0x00000055, .write 0x00 4 0x00005631, .write 0x00 4 0x2, .read 0x04 4] := by
  decide

/-! ### Witnesses: states and operands that meet the hypotheses of each obligation -/

/-- StepRunsTheDecodedCommand, both clauses. -/
theorem witness_StepRunsTheDecodedCommand :
    ({ inBreak with pending := [command 5 [] 0x2] } : State).pending = [command 5 [] 0x2] ∧
      (command 5 [] 0x2).access = .write (inBreak.params.base + 0x00) 4 0x2 ∧ State.reset.pending = [] := by decide

/-- ReadsReturnTheRegisterAndChangeNothing, at both ends of the map and of the reserved offsets; the offsets of R52 are
those of the map's rows, so each of its clauses is met. -/
theorem witness_ReadsReturnTheRegisterAndChangeNothing :
    ∀ off ∈ [0x00, 0x44, 0x48, 0xFC],
      (event 5 [] (.read off 4)).access = .read (State.reset.params.base + off) 4 ∧ admitted off := by decide

/-- ReadOnlyAndReservedIgnoreWrites, at the edges of the ranges it covers (its reads: the witness above). -/
theorem witness_ReadOnlyAndReservedIgnoreWrites :
    ∀ off ∈ [0x04, 0x1C, 0x28, 0x44, 0x48, 0xFC],
      (event 5 [] (.write off 4 7)).access = .write (State.reset.params.base + off) 4 7 ∧ admitted off ∧ off ≠ 0x00 ∧
        off ≠ 0x20 ∧ off ≠ 0x24 := by decide

/-- TxdataWritesStoreFourBytes, for both registers. -/
theorem witness_TxdataWritesStoreFourBytes :
    (∀ j : Fin 2, (event 5 [] (.write (0x20 + 4 * j.val) 4 7)).access =
      .write (State.reset.params.base + (0x20 + 4 * j.val)) 4 7) := by decide

/-- OtherAccessesStop: a narrow access, a misaligned one at the block's last byte, and one on either side of a block at
BASE 16. -/
theorem witness_OtherAccessesStop :
    ((0 : Nat) < 256 ∧ ((1 : Nat) ≠ 4 ∨ 0 % 4 ≠ 0)) ∧ (255 < 256 ∧ ((4 : Nat) ≠ 4 ∨ 255 % 4 ≠ 0)) ∧
      (let s := State.resetWith { Params.default with base := 16 }
       15 < s.params.base ∧ s.params.base + 256 ≤ 272) := by decide

/-- PowerOnResetValues. -/
theorem witness_PowerOnResetValues :
    ({ inBody with pending := [event 5 [] .powerOnReset] } : State).pending = [event 5 [] .powerOnReset] ∧
      (event 5 [] .powerOnReset).access = .powerOnReset := by decide

/-- NopAndReservedChangeNothing: the ends of the operation field's ranges. -/
theorem witness_NopAndReservedChangeNothing :
    ∀ w ∈ [0x00000000#32, 0xFFFFFFF0#32, 0x00000009#32, 0x0000000F#32], w.toNat % 16 = 0 ∨ 9 ≤ w.toNat % 16 := by simp

/-- ConfigSetsTheRateOrIsIgnored: the ends of the legal range, and each reason to ignore. -/
theorem witness_ConfigSetsTheRateOrIsIgnored :
    (2 ≤ (2#24).toNat ∧ (10000000#24).toNat ≤ 10000000 ∧ (idle.phase = .idle ∨ idle.phase = .done) ∧
      (done.phase = .idle ∨ done.phase = .done)) ∧
      ((1#24).toNat < 2 ∧ 10000000 < (10000001#24).toNat ∧ inBreak.phase = .brk ∧ inBody.phase = .body) := by decide

/-- LoadLatchesTheTransaction and LatchedBufferHasTheLinLayout: both lengths' ends, both states. -/
theorem witness_LoadLatchesTheTransaction :
    (0#4).toNat ≤ 8 ∧ (8#4).toNat ≤ 8 ∧ idle.phase = .idle ∧ done.phase = .done := by decide

/-- LatchedBufferHasTheLinLayout: a byte inside the data, and one from TXLEN on. -/
theorem witness_LatchedBufferHasTheLinLayout :
    (2#4).toNat ≤ 8 ∧ (idle.phase = .idle ∨ idle.phase = .done) ∧ 1 < (2#4).toNat ∧ latched.frame.txlen.toNat ≤ 6 := by
  decide

/-- IllegalOperandsAreRejected: the illegal lengths' ends, and the rates next to the legal ones. -/
theorem witness_IllegalOperandsAreRejected :
    9 ≤ (9#4).toNat ∧ 9 ≤ (15#4).toNat ∧ (1#24).toNat < 2 ∧ 10000000 < (10000001#24).toNat := by decide

/-- RequestLatchesAndStartsTheBreak, with room for just the break byte. -/
theorem witness_RequestLatchesAndStartsTheBreak :
    let s := { done with txRoom := 1 }
    (8#4).toNat ≤ 8 ∧ (s.phase = .idle ∨ s.phase = .done) ∧ 1 ≤ s.txRoom := by decide

/-- RequestIsLoadThenStartBreak, and PollPerformsTheEnabledStep's clause on LOAD: an accepted LOAD and a rejected one. -/
theorem witness_RequestIsLoadThenStartBreak :
    (∃ u, exec (.load 0x10 8 .classic .read) done = .next u ∧ u.accept = true) ∧
      ∃ u, exec (.load 0x10 9 .classic .read) done = .next u ∧ u.accept = false := ⟨⟨_, rfl, rfl⟩, _, rfl, rfl⟩

/-- StartBreakFromIdle, and each reason for misuse. -/
theorem witness_StartBreakFromIdle :
    (let s := { latched with txRoom := 1 }
     s.phase = .idle ∧ s.loaded = true ∧ 1 ≤ s.txRoom) ∧ idle.loaded = false ∧ done.phase ≠ .idle := by decide

/-- StepBodyInBreak, first clause: one microsecond past the threshold, with room for just the bytes. -/
theorem witness_StepBodyInBreak_sends :
    let s := { inBreak with now := 2041, txRoom := 5 }
    s.phase = .brk ∧ s.tbrk.toNat < (s.now.toNat + 2 ^ 32 - s.tstartBrk.toNat) % 2 ^ 32 ∧
      ((s.txframe.toList.take s.frame.txlen.toNat).drop 1).length ≤ s.txRoom := by decide
/-- StepBodyInBreak, second clause: BREAK_MULT 20 and TIMEOUT_MULT 1, one microsecond past the deadline. -/
theorem witness_StepBodyInBreak_timesOut :
    let s := { inBreak with now := 3601, tbrk := 10400, tto := 2600 }
    s.phase = .brk ∧ (s.now.toNat + 2 ^ 32 - s.tstartBrk.toNat) % 2 ^ 32 ≤ s.tbrk.toNat ∧
      s.tto.toNat < (s.now.toNat + 2 ^ 32 - s.tstartTx.toNat) % 2 ^ 32 := by decide
/-- StepBodyInBreak and StepRecvInBody, the clauses on misuse. -/
theorem witness_StepBodyInBreak_misuse : inBody.phase ≠ .brk ∧ inBreak.phase ≠ .body := by decide
/-- StepBodyInBreak, third clause: at the threshold itself. -/
theorem witness_StepBodyInBreak_waits :
    let s := { inBreak with now := 2040 }
    s.phase = .brk ∧ (s.now.toNat + 2 ^ 32 - s.tstartBrk.toNat) % 2 ^ 32 ≤ s.tbrk.toNat ∧
      (s.now.toNat + 2 ^ 32 - s.tstartTx.toNat) % 2 ^ 32 ≤ s.tto.toNat := by decide

/-- StepRecvInBody, first clause: exactly RXLEN bytes. -/
theorem witness_StepRecvInBody_receives :
    let s := { inBody with rx := [0x00, 0x55, 0x50, 0x01, 0x02, 0xFC] }
    s.phase = .body ∧ s.frame.rxlen.toNat ≤ s.rx.length := by decide
/-- StepRecvInBody, second clause: one byte short, one microsecond past the deadline. -/
theorem witness_StepRecvInBody_timesOut :
    let s := { inBody with rx := [0x00, 0x55, 0x50, 0x01, 0x02], now := 8281 }
    s.phase = .body ∧ s.rx.length < s.frame.rxlen.toNat ∧
      s.tto.toNat < (s.now.toNat + 2 ^ 32 - s.tstartTx.toNat) % 2 ^ 32 := by decide
/-- StepRecvInBody, third clause: at the deadline itself. -/
theorem witness_StepRecvInBody_waits :
    let s := { inBody with rx := [0x00, 0x55, 0x50, 0x01, 0x02], now := 8280 }
    s.phase = .body ∧ s.rx.length < s.frame.rxlen.toNat ∧
      (s.now.toNat + 2 ^ 32 - s.tstartTx.toNat) % 2 ^ 32 ≤ s.tto.toNat := by decide

/-- PollPerformsTheEnabledStep: its five clauses. -/
theorem witness_PollPerformsTheEnabledStep :
    (latched.phase = .idle ∧ latched.loaded = true) ∧ (idle.phase = .idle ∧ idle.loaded = false) ∧ inBreak.phase = .brk ∧
      inBody.phase = .body ∧ done.phase = .done := by decide

/-- MisuseGoesToDone: each form. -/
theorem witness_MisuseGoesToDone :
    (idle.loaded = false ∧ inBody.phase ≠ .idle) ∧ inBody.phase ≠ .brk ∧ inBreak.phase ≠ .body ∧
      ((8#4).toNat ≤ 8 ∧ inBreak.phase = .brk ∧ inBody.phase = .body) := by decide

/-- OnlyTheListedMoves, EachRegisterHasItsWriters and TransportCallsOfOneCommand: a command that moves and calls. -/
theorem witness_next : ∃ t, exec .stepBody { inBreak with now := 2041 } = .next t ∧ t.phase = .body := ⟨_, rfl, rfl⟩

/-- EachRegisterHasItsWriters: a command that is none of the writers, and a misuse that clears LOADED. -/
theorem witness_EachRegisterHasItsWriters :
    ((∃ t, exec .poll done = .next t) ∧ Instr.poll ≠ .reset ∧ (∀ b, Instr.poll ≠ .config b) ∧
      (∀ id len m d, Instr.poll ≠ .load id len m d) ∧ (∀ id len m d, Instr.poll ≠ .request id len m d) ∧
      ¬ clearsErr .poll done ∧ ¬ startsBreak .poll done ∧ ¬ receives .poll done) ∧
      ∃ t, exec .stepBody latched = .next t ∧ ¬ clearsErr .stepBody latched ∧ t.loaded ≠ latched.loaded :=
  ⟨⟨⟨_, rfl⟩, by decide, by simp, by simp, by simp, by decide, by decide, by decide⟩, _, rfl, by decide, by decide⟩

/-- OnlyAFullTransportIsRefused: each way to write more than there is room for, and the same with just enough. -/
theorem witness_OnlyAFullTransportIsRefused :
    overfillsTransport .poll { latched with txRoom := 0 } ∧
      overfillsTransport (.request 0x10 8 .classic .write) { done with txRoom := 0 } ∧
      overfillsTransport .stepBody { inBreak with now := 2041, txRoom := 4 } ∧
      ¬ overfillsTransport .poll { latched with txRoom := 1 } ∧
      ¬ overfillsTransport .stepBody { inBreak with now := 2041, txRoom := 5 } :=
  ⟨by decide, by decide, by decide, by decide, by decide⟩

/-- ErrorFlagsAccumulate and ErrorCausesExcludeEachOther: a command that clears ERR, and one that adds to it. -/
theorem witness_ErrorFlagsAccumulate :
    ((∃ t, exec .reset done = .next t) ∧ clearsErr .reset done) ∧
      ∃ t, exec .stepRecv done = .next t ∧ ¬ clearsErr .stepRecv done ∧ t.err ≠ done.err :=
  ⟨⟨⟨_, rfl⟩, by decide⟩, _, rfl, by decide, by decide⟩

/-- TransportRateFollowsTheState: in BREAK and in BODY, with a step that leads from one to the other. -/
theorem witness_TransportRateFollowsTheState :
    inBreak.RateInv ∧ inBody.RateInv ∧ (seen State.phase (stepOn inBreak (command 1041 [] 0x2)) = some .body) := by decide

/-- StepKeepsTheInvariants, in each of the four states and with a transaction latched. -/
theorem witness_StepKeepsTheInvariants :
    latched.Inv ∧ inBreak.Inv ∧ inBody.Inv ∧ done.Inv ∧ (seen State.phase (stepOn inBreak (command 1041 [] 0x2))).isSome :=
  ⟨by decide, by decide, by decide, by decide, by decide⟩

/-- ResetMeetsTheInvariants: the ends of the parameters' ranges. -/
theorem witness_ResetMeetsTheInvariants :
    Params.Legal { Params.default with breakMult := 255, timeoutMult := 1, baudReset := 2 } ∧
      Params.Legal { Params.default with breakMult := 1, timeoutMult := 255, baudReset := 10000000 } := by decide

/-- BreakPlaceholderIsZero. -/
theorem witness_BreakPlaceholderIsZero :
    inBody.Inv ∧ inBody.frame.txlen ≠ 0 ∧ inBody.frame.txlen.toNat ≤ 6 :=
  ⟨by decide, by decide, by decide⟩

/-- ChecksumOrderAndPid. -/
theorem witness_ChecksumOrderAndPid :
    List.Perm [0x01#8, 0x02#8] [0x02#8, 0x01#8] ∧ (0x10#6) ≠ 0x11#6 := by decide

/-- ChecksumDetectsSingleBitFlips, second clause. -/
theorem witness_ChecksumDetectsSingleBitFlips : coveredSum 0x50 ([0x01] ++ []) .classic ≠ 0 := by decide

/-- NoTimeoutInBreakByDefault, past both the threshold and the deadline. -/
theorem witness_NoTimeoutInBreakByDefault :
    inBreak.Inv ∧ inBreak.phase = .brk ∧
      inBreak.params.breakMult.toNat ≤ inBreak.params.timeoutMult.toNat * (inBreak.frame.len.toNat + 5) ∧
      (seen State.phase (exec .poll { inBreak with now := 9000 })).isSome :=
  ⟨by decide, by decide, by decide, by decide⟩

/-- OnlyTimeDifferencesMatter: the same break at another absolute time, across the wrap. -/
theorem witness_OnlyTimeDifferencesMatter :
    SameButClock { inBreak with now := 2041 }
      { inBreak with now := 17, tstartBrk := 0xFFFFFC00, tstartTx := 0xFFFFFC00 } ∧
      ∃ t, exec .poll { inBreak with now := 2041 } = .next t :=
  ⟨⟨rfl, fun _ => by decide⟩, _, rfl⟩

/-- PollingEndsInTimeout: TTO 3 and δ 2 ask for three POLLs. -/
theorem witness_PollingEndsInTimeout :
    let s := { inBreak with tto := 3, pending := List.replicate 3 (command 2 [0x00] 0x2) }
    s.phase = .brk ∧ s.tstartBrk = s.now ∧ s.tstartTx = s.now ∧ 1 ≤ 2 ∧
      (∀ e ∈ s.pending, e.access = .write (s.params.base + 0x00) 4 0x00000002 ∧ 2 ≤ e.dt ∧
        e.rx.length < s.frame.rxlen.toNat ∧ 11 ≤ e.txRoom) ∧
      (∀ (n : Nat) (u : State), run n s = .next u → u.phase ≠ .done →
        ((s.pending.take (n + 1)).map Event.dt).sum < 2 ^ 32) ∧
      (s.tto.toNat + 1 + (2 - 1)) / 2 + 1 ≤ s.pending.length := by
  refine ⟨by decide, by decide, by decide, by decide, by decide, fun n u _ _ => ?_, by decide⟩
  have h : ∀ m ≤ 4, ((List.replicate 3 (command 2 [0x00] 0x2)).take m |>.map Event.dt).sum < 2 ^ 32 := by decide
  rcases Nat.le_total (n + 1) 4 with hn | hn
  · exact h (n + 1) hn
  · rw [List.take_of_length_le (by simp only [List.length_replicate]; omega)]
    exact h 4 (Nat.le_refl 4)

/-- NextTransactionIsIndependent: one state after a timeout, one after a success. -/
theorem witness_NextTransactionIsIndependent :
    (8#4).toNat ≤ 8 ∧ done.inFlight = false ∧ ({ done with err := 0x2, rxbuf := padTo 12 [] } : State).inFlight = false ∧
      SameConfiguration done { done with err := 0x2, rxbuf := padTo 12 [] } :=
  ⟨by decide, by decide, by decide, rfl, rfl, rfl, rfl, rfl, rfl, rfl, rfl, rfl, rfl, rfl⟩

/-- HealthyWriteEndsWithoutError: scenario 2, with the least room and one byte too many received. -/
theorem witness_HealthyWriteEndsWithoutError :
    let e1 : Event := ⟨100, [], 1, .write 0 4 (encode (.request 0x10 2 .classic .write))⟩
    let e2 : Event := command 1041 [] 0x2
    let e3 : Event := command 659 [0x00, 0x55, 0x50, 0x01, 0x02, 0xFC, 0x99] 0x2
    let s := { idle with pending := [e1, e2, e3] }
    (2#4).toNat ≤ 8 ∧ (s.phase = .idle ∨ s.phase = .done) ∧ s.pending = e1 :: e2 :: e3 :: [] ∧
      e1.access = .write (s.params.base + 0x00) 4 (encode (.request 0x10 2 .classic .write)) ∧ 1 ≤ e1.txRoom ∧
      e2.access = .write (s.params.base + 0x00) 4 0x00000002 ∧ s.tbrk.toNat < e2.dt ∧ e2.dt < 2 ^ 32 ∧ 11 ≤ e2.txRoom ∧
      e3.access = .write (s.params.base + 0x00) 4 0x00000002 ∧
      e3.rx = [0x00, 0x55, pidOf 0x10] ++ s.txdata.toList.take (2#4).toNat ++
        [computeChecksum (pidOf 0x10) (s.txdata.toList.take (2#4).toNat) .classic] ++ [0x99] := by decide

/-- MasterReadChecksTheSlavesChecksum: scenario 3. -/
theorem witness_MasterReadChecksTheSlavesChecksum :
    let e1 : Event := ⟨100, [], 1, .write 0 4 (encode (.request 0x10 1 .enhanced .read))⟩
    let e2 : Event := ⟨1041, [], 2, .write 0 4 0x2⟩
    let e3 : Event := command 659 [0x00, 0x55, 0x50, 0x7F, 0x31] 0x2
    let s := { idle with pending := [e1, e2, e3] }
    (1#4).toNat ≤ 8 ∧ [0x7F#8].length = (1#4).toNat ∧ (s.phase = .idle ∨ s.phase = .done) ∧
      s.pending = e1 :: e2 :: e3 :: [] ∧
      e1.access = .write (s.params.base + 0x00) 4 (encode (.request 0x10 1 .enhanced .read)) ∧ 1 ≤ e1.txRoom ∧
      e2.access = .write (s.params.base + 0x00) 4 0x00000002 ∧ s.tbrk.toNat < e2.dt ∧ e2.dt < 2 ^ 32 ∧ 2 ≤ e2.txRoom ∧
      e3.access = .write (s.params.base + 0x00) 4 0x00000002 ∧
      e3.rx = [0x00, 0x55, pidOf 0x10] ++ [0x7F] ++ [0x31] ++ [] := by decide

/-- SetDataFillsTxdata. -/
theorem witness_SetDataFillsTxdata :
    let e1 := event 3 [] (.write 0x20 4 0x44332211)
    let e2 := event 4 [] (.write 0x24 4 0x00000055)
    ({ done with pending := [e1, e2] } : State).pending = e1 :: e2 :: [] ∧
      [e1.access, e2.access] = setDataAccesses done.params.base (padTo 8 [0x11, 0x22, 0x33, 0x44, 0x55]) := by decide

/-- ThresholdIsAtTheBreakBytesEnd: the ends of the legal even rates. -/
theorem witness_ThresholdIsAtTheBreakBytesEnd :
    Params.default.breakMult = 2 ∧ (legalBaud 2 = true ∧ (2#24).toNat % 2 = 0) ∧
      (legalBaud 10000000 = true ∧ (10000000#24).toNat % 2 = 0) := by decide

end Sys2Proof.Tests
end

section
/-! Power-on reset as a step of the machine (R43, R200). -/

namespace Sys2Proof.Machine

/-- A buffer padded from nothing is all zeros, the reset value of TXDATA, TXFRAME and RXBUF (R38 to R40). -/
theorem padTo_nil (n : Nat) : padTo n [] = Vector.replicate n 0#8 := by
  apply Vector.toList_inj.mp
  simp

/-- R200: a step whose next access is power-on reset resets the engine in the world that the access finds. -/
theorem step_powerOnReset {s : State} {e : Event} {rest : List Event} (hp : s.pending = e :: rest)
    (ha : e.access = .powerOnReset) : step s = .next (powerOn (arrive e rest s)) := by
  simp only [step, hp, ha, perform]

/-- Settles O11: the step is `powerOn` on the state the access finds, whose cleared buffers are all zeros; the other
fields have R43's values, and the record of calls its old one, by the definition of `powerOn`. -/
theorem powerOnResetValues : Obligations.PowerOnResetValues := by
  intro s e rest hp ha
  rw [step_powerOnReset hp ha, powerOn, State.resetWith, padTo_nil, padTo_nil]
  rfl

end Sys2Proof.Machine
end

section
/-! Host reads and ignored writes: what a register-map access returns and leaves unchanged (R51 to R54, R58). -/

namespace Sys2Proof.Machine

/-- R52: a register's own offset. -/
@[simp] theorem regAt_offset (r : Reg) : regAt r.offset = some r := regAt_eq_some.mpr rfl

/-- R52, R53: the map ends at PARAMS; no register is at 0x48 or beyond. -/
theorem regAt_eq_none {off : Nat} (h : 0x48 ≤ off) : regAt off = none := by
  have bound (r : Reg) : r.offset < 0x48 := by cases r <;> decide
  refine Option.eq_none_iff_forall_ne_some.mpr fun r hr => ?_
  have at_off := regAt_eq_some.mp hr
  have := bound r
  omega

/-- R51: the offset of a register reads that register. -/
@[simp] theorem readOffset_offset (s : State) (r : Reg) : s.readOffset r.offset = s.readReg r := by
  rw [State.readOffset, regAt_offset]

/-- R53: a reserved offset reads 0. -/
theorem readOffset_reserved (s : State) {off : Nat} (h : 0x48 ≤ off) : s.readOffset off = 0 := by
  rw [State.readOffset, regAt_eq_none h]

/-- R53, R54: CMD and the reserved offsets read 0. -/
theorem readOffset_eq_zero (s : State) {off : Nat} (h : off = 0x00 ∨ 0x48 ≤ off) : s.readOffset off = 0 := by
  rcases h with rfl | h
  · exact readOffset_offset s .cmd
  · exact readOffset_reserved s h

/-- R37, R76: no register shows the clock or the transport an access brings. -/
@[simp] theorem readReg_arrive (s : State) (e : Event) (rest : List Event) (r : Reg) :
    (arrive e rest s).readReg r = s.readReg r := by
  cases r <;> rfl

@[simp] theorem readOffset_arrive (s : State) (e : Event) (rest : List Event) (off : Nat) :
    (arrive e rest s).readOffset off = s.readOffset off := by
  rw [State.readOffset, State.readOffset]
  cases regAt off with
  | some r => exact readReg_arrive s e rest r
  | none => rfl

/-- R51, R58: a step whose next access reads an admitted offset only records what the offset reads. -/
theorem step_read {s : State} {e : Event} {rest : List Event} {off : Nat} (hp : s.pending = e :: rest)
    (ha : e.access = .read (s.params.base + off) 4) (hoff : admitted off) :
    step s = .next { arrive e rest s with reads := s.reads ++ [(off, s.readOffset off)] } := by
  have reaches := atOffset_admitted (arrive e rest s) hoff fun off => hostRead off (arrive e rest s)
  simp only [step, hp, ha, perform]
  refine reaches.trans ?_
  rw [hostRead, readOffset_arrive, arrive_reads]

/-- R51: a step whose next access writes an admitted offset is the write at that offset. -/
theorem step_write {s : State} {e : Event} {rest : List Event} {off : Nat} {w : Word} (hp : s.pending = e :: rest)
    (ha : e.access = .write (s.params.base + off) 4 w) (hoff : admitted off) :
    step s = hostWrite off w (arrive e rest s) := by
  have reaches := atOffset_admitted (arrive e rest s) hoff fun off => hostWrite off w (arrive e rest s)
  simp only [step, hp, ha, perform]
  exact reaches

/-- R54: a register other than TXDATA stores nothing. -/
theorem storeReg_readOnly (s : State) (w : Word) {r : Reg} (h0 : r ≠ .txdata0) (h1 : r ≠ .txdata1) :
    s.storeReg w r = s := by
  cases r with
  | txdata0 => exact absurd rfl h0
  | txdata1 => exact absurd rfl h1
  | _ => rfl

/-- R54: a write to a register other than CMD only stores. -/
theorem hostWrite_offset (s : State) (w : Word) {r : Reg} (h : r ≠ .cmd) :
    hostWrite r.offset w s = .next (s.storeReg w r) := by
  rw [hostWrite, regAt_offset]
  cases r with
  | cmd => exact absurd rfl h
  | _ => rfl

/-- R53, R54: a write changes nothing where neither CMD nor TXDATA is: at a read-only register or at no register. -/
theorem hostWrite_ignored (s : State) (w : Word) {off : Nat} (hcmd : off ≠ 0x00) (h0 : off ≠ 0x20)
    (h1 : off ≠ 0x24) : hostWrite off w s = .next s := by
  cases hr : regAt off with
  | none => rw [hostWrite, hr]
  | some r =>
    obtain rfl := regAt_eq_some.mp hr
    rw [hostWrite_offset s w (ne_of_apply_ne Reg.offset hcmd),
      storeReg_readOnly s w (ne_of_apply_ne Reg.offset h0) (ne_of_apply_ne Reg.offset h1)]

/-- Settles O5: the value recorded is `readOffset`, and each row of R52 names a register by its own offset. -/
theorem readsReturnTheRegisterAndChangeNothing : Obligations.ReadsReturnTheRegisterAndChangeNothing := by
  intro s e rest off hp ha hoff
  refine ⟨s.readOffset off, step_read hp ha hoff, fun p hmem hp1 => ?_, readOffset_eq_zero s⟩
  have row : p.1 = p.2.offset := by
    clear hp1
    revert p
    decide
  rw [hp1, row, readOffset_offset]

/-- Settles O6: at such an offset the host's write is ignored, and what its read records is 0. -/
theorem readOnlyAndReservedIgnoreWrites : Obligations.ReadOnlyAndReservedIgnoreWrites := by
  constructor
  · intro s e rest off w hp ha hoff hcmd h0 h1
    exact (step_write hp ha hoff).trans (hostWrite_ignored _ w hcmd h0 h1)
  · intro s e rest off hp ha hoff hzero
    rw [step_read hp ha hoff, readOffset_eq_zero s hzero]
    rfl

end Sys2Proof.Machine
end

section
/-! The command word without its ignored bits (R84): decoding undoes encoding, and encoding a decoded word keeps the
word's used bits and clears the others. -/

namespace Sys2Proof

open Sys2Proof.Machine Sys2Proof.Laws

@[simp] theorem mode_toBit_ofBit (b : BitVec 1) : (ChecksumMode.ofBit b).toBit = b := by
  revert b
  decide

@[simp] theorem dir_toBit_ofBit (b : BitVec 1) : (Direction.ofBit b).toBit = b := by
  revert b
  decide

/-- R9: two adjacent fields are one longer field. -/
theorem field_append_field (w : Word) (lo n : Nat) {m : Nat} :
    field w (lo + n) m ++ field w lo n = field w lo (m + n) :=
  BitVec.extractLsb'_append_extractLsb'_eq_extractLsb' rfl

/-- R82: the operand fields of a REQUEST or LOAD word. -/
theorem fields_transactionOperands (id : BitVec 6) (len : BitVec 4) (mode : ChecksumMode) (dir : Direction)
    (op : BitVec 4) :
    let w : Word := transactionOperands id len mode dir ++ op
    idOf w = id ∧ lenOf w = len ∧ modeOf w = mode ∧ dirOf w = dir := by
  simp [idOf, lenOf, modeOf, dirOf, field_append, transactionOperands_id, transactionOperands_len,
    transactionOperands_mode, transactionOperands_dir]

/-- R83: the operand field of a CONFIG word. -/
theorem baudOf_configOperands (baud : BitVec 24) (op : BitVec 4) : baudOf (baud ++ 0#4 ++ op) = baud := by
  rw [baudOf, field_append _ op 24 (by decide)]
  exact BitVec.extractLsb'_append_eq_left

/-- R80 to R83: decoding the word of a command gives the command back. -/
@[simp] theorem decodeWord_encode (i : Instr) : decodeWord (encode i) = i := by
  cases i with
  | request id len mode dir =>
    simp [decodeWord, encode, Instr.operands, Instr.op, OpField.opOf_append, fields_transactionOperands]
  | load id len mode dir =>
    simp [decodeWord, encode, Instr.operands, Instr.op, OpField.opOf_append, fields_transactionOperands]
  | config baud =>
    simp [decodeWord, encode, Instr.operands, Instr.op, OpField.opOf_append, baudOf_configOperands]
  | _ => rfl

/-- R82, R84: REQUEST and LOAD keep bits [15:4] of the word. -/
theorem transactionOperands_fields (w : Word) :
    transactionOperands (idOf w) (lenOf w) (modeOf w) (dirOf w) = field w 4 28 &&& 0x0000FFF#28 := by
  have split : field w 16 16 ++ field w 15 1 ++ field w 14 1 ++ lenOf w ++ idOf w = field w 4 28 := by
    rw [lenOf, idOf, field_append_field w 15 1, field_append_field w 14 1, field_append_field w 10 4,
      field_append_field w 4 6]
  calc transactionOperands (idOf w) (lenOf w) (modeOf w) (dirOf w)
      = 0#16 ++ field w 15 1 ++ field w 14 1 ++ lenOf w ++ idOf w := by simp [transactionOperands, modeOf, dirOf]
    _ = (field w 16 16 ++ field w 15 1 ++ field w 14 1 ++ lenOf w ++ idOf w) &&&
          (0#16 ++ BitVec.allOnes 1 ++ BitVec.allOnes 1 ++ BitVec.allOnes 4 ++ BitVec.allOnes 6) := by
        simp only [BitVec.and_append, BitVec.and_allOnes, BitVec.and_zero]
    _ = field w 4 28 &&& 0x0000FFF#28 := by
        rw [split]
        rfl

/-- R83, R84: CONFIG keeps bits [31:8] of the word. -/
theorem configOperands_fields (w : Word) : baudOf w ++ 0#4 = field w 4 28 &&& 0xFFFFFF0#28 := by
  calc baudOf w ++ 0#4
      = (baudOf w ++ field w 4 4) &&& (BitVec.allOnes 24 ++ 0#4) := by
        rw [BitVec.and_append, BitVec.and_allOnes, BitVec.and_zero]
    _ = field w 4 28 &&& 0xFFFFFF0#28 := by
        rw [baudOf, field_append_field w 4 4]
        rfl

/-- R81: which operands the decoded command has, by OP. -/
theorem decodeWord_operands (w : Word) :
    (decodeWord w).operands =
      if opOf w = 0x1 ∨ opOf w = 0x5 then transactionOperands (idOf w) (lenOf w) (modeOf w) (dirOf w)
      else if opOf w = 0x4 then baudOf w ++ 0#4 else 0#28 := by
  unfold decodeWord
  rcases opOf w with ⟨⟨op, bound⟩⟩
  interval_cases op <;> rfl

/-- R80: OP and some bits of the operand field are those bits of the word. -/
theorem mask_append_op (w : Word) (mask : BitVec 28) : (field w 4 28 &&& mask) ++ opOf w = w &&& (mask ++ 0xF#4) := by
  have split : field w 4 28 ++ opOf w = w := (field_append_field w 0 4).trans BitVec.extractLsb'_eq_self
  have ones : opOf w &&& 0xF#4 = opOf w := BitVec.and_allOnes
  calc (field w 4 28 &&& mask) ++ opOf w
      = (field w 4 28 ++ opOf w) &&& (mask ++ 0xF#4) := by rw [BitVec.and_append, ones]
    _ = w &&& (mask ++ 0xF#4) := by rw [split]

/-- R84: the word of the decoded command is the word without its ignored bits. -/
theorem encode_decodeWord (w : Word) : encode (decodeWord w) = w &&& usedBits (opOf w) := by
  rw [encode, decodeWord_op, decodeWord_operands, usedBits]
  split
  · rw [transactionOperands_fields, mask_append_op]
    rfl
  · split
    · rw [configOperands_fields, mask_append_op]
      rfl
    · rw [← BitVec.and_zero (x := field w 4 28), mask_append_op]
      rfl

/-- R84: OP is never ignored. -/
theorem opOf_and_usedBits (w : Word) (op : BitVec 4) : opOf (w &&& usedBits op) = opOf w := by
  have used : opOf (usedBits op) = BitVec.allOnes 4 := by
    revert op
    decide
  calc opOf (w &&& usedBits op) = opOf w &&& opOf (usedBits op) := BitVec.extractLsb'_and
    _ = opOf w := by rw [used, BitVec.and_allOnes]

/-- Settles O2: a word's used bits are the word of its command, so two words that agree in them have one OP and then
decode to the one command with that word. -/
theorem ignoredBitsHaveNoEffect : Obligations.IgnoredBitsHaveNoEffect := by
  refine ⟨fun w w' h => ?_, encode_decodeWord⟩
  have same_op : opOf w' = opOf w := by
    rw [← opOf_and_usedBits w' (opOf w), ← h, opOf_and_usedBits]
  calc decodeWord w' = decodeWord (w' &&& usedBits (opOf w')) := by rw [← encode_decodeWord, decodeWord_encode]
    _ = decodeWord (w &&& usedBits (opOf w)) := by rw [same_op, h]
    _ = decodeWord w := by rw [← encode_decodeWord, decodeWord_encode]

end Sys2Proof
end

section
/-! LOAD's outgoing buffer (R88, R126) and the operands R86 rejects. -/

namespace Sys2Proof.Machine

/-- R88: TXLEN counts the bytes of the outgoing frame. -/
theorem length_outgoingBytes (id : BitVec 6) (mode : ChecksumMode) (dir : Direction) {len : BitVec 4} {data : List Byte}
    (hlen : len.toNat ≤ 8) (hdata : data.length = len.toNat) :
    (outgoingBytes id data mode dir).length = (txlenOf len dir).toNat := by
  rw [txlenOf_toNat hlen]
  cases dir <;> simp [outgoingBytes, hdata]

/-- R39: a buffer is 0 beyond the bytes it was filled with. -/
theorem byteAt_padTo_of_length_le (n : Nat) {l : List Byte} {k : Nat} (h : l.length ≤ k) :
    byteAt (padTo n l) k = 0#8 := by
  simp [byteAt_padTo, h]

/-- R38: the payload's bytes are TXDATA's. -/
theorem getD_payload (s : State) {len : BitVec 4} {k : Nat} (h : k < len.toNat) :
    (s.payload len).getD k 0#8 = byteAt s.txdata k := by
  simp [payload_eq, byteAt, List.getD_eq_getElem?_getD, h]

/-- R88: the header of the outgoing frame, for both directions. -/
theorem getD_outgoingBytes_header (id : BitVec 6) (data : List Byte) (mode : ChecksumMode) (dir : Direction) {k : Nat}
    (h : k < 3) : (outgoingBytes id data mode dir).getD k 0#8 = [0x00#8, 0x55#8, pidOf id].getD k 0#8 := by
  cases dir with
  | write => rw [outgoingBytes, List.append_assoc, List.getD_append _ _ _ _ h]
  | read => rfl

/-- R88: the data of a master-write follow its header. -/
theorem getD_outgoingBytes_data (id : BitVec 6) {data : List Byte} (mode : ChecksumMode) {k : Nat}
    (h : k < data.length) : (outgoingBytes id data mode .write).getD (3 + k) 0#8 = data.getD k 0#8 := by
  simp [outgoingBytes, List.getD_eq_getElem?_getD, List.getElem?_append_left h, Nat.add_comm 3 k]

/-- R88: the checksum of a master-write follows its data. -/
theorem getD_outgoingBytes_checksum (id : BitVec 6) (data : List Byte) (mode : ChecksumMode) :
    (outgoingBytes id data mode .write).getD (3 + data.length) 0#8 = computeChecksum (pidOf id) data mode := by
  simp [outgoingBytes, List.getD_eq_getElem?_getD, Nat.add_comm 3]

/-- Settles O17: TXFRAME is `outgoingBytes` padded with zeros, and TXLEN is how many bytes that list has. -/
theorem latchedBufferHasTheLinLayout : Obligations.LatchedBufferHasTheLinLayout := by
  intro id len mode dir s hlen hphase
  have hdata := length_payload s hlen
  have txlen := txlenOf_toNat hlen dir
  refine ⟨latch id len mode dir s, exec_load_accepted hlen ((inFlight_eq_false s).mpr hphase), ?_⟩
  simp only [latch_txframe, latch_frame, assembleFrame]
  have header {k : Nat} (hk : k < 3) :=
    (byteAt_padTo_of_lt (n := 12) _ (by omega)).trans (getD_outgoingBytes_header id (s.payload len) mode dir hk)
  refine ⟨header (k := 0) (by decide), header (k := 1) (by decide), header (k := 2) (by decide), ?_, ?_,
    fun k hk => ?_⟩
  · rintro rfl
    refine ⟨txlen, fun k hk => ?_, ?_⟩
    · rw [byteAt_padTo_of_lt _ (by omega), getD_outgoingBytes_data id mode (hdata.symm ▸ hk), getD_payload s hk]
    · rw [byteAt_padTo_of_lt _ (by omega), ← payload_eq, ← hdata, getD_outgoingBytes_checksum]
  · rintro rfl
    exact txlen
  · exact byteAt_padTo_of_length_le 12 ((length_outgoingBytes id mode dir hlen hdata).trans_le hk)

/-- R86(a): LOAD's transaction with an illegal length. -/
theorem loadTransaction_illegal {len : BitVec 4} (h : 8 < len.toNat) (id : BitVec 6) (mode : ChecksumMode)
    (dir : Direction) (s : State) : loadTransaction id len mode dir s = { s with accept := false } := by
  rw [loadTransaction, (legalLen_eq_false len).mpr h]
  rfl

/-- Settles O18: the length is tested before the state is, and an illegal rate before anything is written. -/
theorem illegalOperandsAreRejected : Obligations.IllegalOperandsAreRejected := by
  refine ⟨fun id len mode dir s hlen => ?_, fun baud s hbaud => ?_⟩
  · have rejected := loadTransaction_illegal hlen id mode dir s
    exact ⟨by rw [exec, execLoad, rejected], by rw [exec, execRequest, rejected]; rfl⟩
  · rcases execConfig_cases baud s with ⟨legal, -, -⟩ | ⟨-, ignored⟩
    · rw [legalBaud_eq_true] at legal
      omega
    · exact ignored

end Sys2Proof.Machine
end

section
/-! Response validation: what each check finds and which flag it raises (R108 to R110). -/

namespace Sys2Proof.Machine

/-- R108: the echo check fails on SYNC, on PID, or on the break artifact where it is checked. -/
theorem echoMismatch_eq_true (p : Params) (t r : Vector Byte 12) :
    echoMismatch p t r = true ↔
      byteAt r 1 ≠ byteAt t 1 ∨ byteAt r 2 ≠ byteAt t 2 ∨ (p.checkBreakEcho = true ∧ byteAt r 0 ≠ 0x00) := by
  simp [echoMismatch, or_assoc]

/-- R109: the checksum check is made only on a response with data, and fails on another checksum than the received. -/
theorem checksumMismatch_eq_true (f : Frame) (r : Vector Byte 12) :
    checksumMismatch f r = true ↔
      f.rxlen.toNat = f.len.toNat + 4 ∧
        computeChecksum f.pid ((r.toList.drop 3).take f.len.toNat) f.mode ≠ byteAt r (3 + f.len.toNat) := by
  rw [checksumMismatch, Bool.and_eq_true, decide_eq_true_eq, decide_eq_true_eq, slice]

/-- R26: a bit of a flag that is raised only on a condition. -/
theorem getLsbD_flagIf (c : Bool) (flag : BitVec 4) (k : Nat) :
    (if c then flag else 0).getLsbD k = (c && flag.getLsbD k) := by
  cases c
  · exact BitVec.getLsbD_zero
  · rfl

/-- R26: ERROR_ECHO is bit 2 and no other. -/
theorem getLsbD_errorEcho (k : Nat) : errorEcho.getLsbD k = decide (2 = k) :=
  BitVec.getLsbD_twoPow 2 k

/-- R26: ERROR_CHK is bit 3 and no other. -/
theorem getLsbD_errorChk (k : Nat) : errorChk.getLsbD k = decide (3 = k) :=
  BitVec.getLsbD_twoPow 3 k

/-- R110: each check raises its own flag, whatever the other finds. -/
theorem getLsbD_validateResponse (p : Params) (f : Frame) (t r : Vector Byte 12) (k : Nat) :
    (validateResponse p f t r).getLsbD k =
      (echoMismatch p t r && decide (2 = k) || checksumMismatch f r && decide (3 = k)) := by
  rw [validateResponse, BitVec.getLsbD_or, getLsbD_flagIf, getLsbD_flagIf, getLsbD_errorEcho, getLsbD_errorChk]

/-- Settles O40: each bit of the result is its own check's answer, and the two bits of no check are 0. -/
theorem validationMakesBothChecks : Obligations.ValidationMakesBothChecks := by
  intro p f t r
  have echo : (validateResponse p f t r).getLsbD 2 = echoMismatch p t r := by
    rw [getLsbD_validateResponse]
    simp
  have chk : (validateResponse p f t r).getLsbD 3 = checksumMismatch f r := by
    rw [getLsbD_validateResponse]
    simp
  have other {k : Nat} (h2 : 2 ≠ k) (h3 : 3 ≠ k) : (validateResponse p f t r).getLsbD k = false := by
    rw [getLsbD_validateResponse]
    simp [h2, h3]
  rw [echo, chk]
  exact ⟨echoMismatch_eq_true p t r, checksumMismatch_eq_true f r, other (by decide) (by decide),
    other (by decide) (by decide)⟩

end Sys2Proof.Machine
end

section
/-! The state machine's moves: the latch, the three step functions by their step command or by POLL, and misuse (R127 to
R133, R156). -/

namespace Sys2Proof.Machine

/-- R153: POLL in IDLE with a transaction latched. -/
theorem execPoll_idle {s : State} (hp : s.phase = .idle) (hl : s.loaded = true) : execPoll s = startBreak s := by
  simp [execPoll, hp, hl]

/-- R153: POLL in BREAK. -/
theorem execPoll_brk {s : State} (hp : s.phase = .brk) : execPoll s = stepBodyFn s := by
  simp [execPoll, hp]

/-- R153: POLL in BODY. -/
theorem execPoll_body {s : State} (hp : s.phase = .body) : execPoll s = stepRecvFn s := by
  simp [execPoll, hp]

/-- R135, R153: POLL in DONE. -/
theorem execPoll_done {s : State} (hp : s.phase = .done) : execPoll s = .next s := by
  simp [execPoll, hp]

/-- R127: the two commands that perform StartBreak in IDLE with a transaction latched. -/
theorem exec_startsBreak {i : Instr} {s : State} (h : startsBreak i s) : exec i s = startBreak s := by
  obtain ⟨rfl | rfl, hp, hl⟩ := h
  · rfl
  · exact execPoll_idle hp hl

/-- R129: the two commands that perform StepBody in BREAK. -/
theorem exec_stepsBody {i : Instr} {s : State} (hi : i.stepsBody) (hp : s.phase = .brk) : exec i s = stepBodyFn s := by
  obtain rfl | rfl := hi
  · rfl
  · exact execPoll_brk hp

/-- R133: the two commands that perform StepRecv in BODY. -/
theorem exec_stepsRecv {i : Instr} {s : State} (hi : i.stepsRecv) (hp : s.phase = .body) : exec i s = stepRecvFn s := by
  obtain rfl | rfl := hi
  · rfl
  · exact execPoll_body hp

/-- R127, R128: StartBreak's misuse, with the two reasons told apart. -/
theorem startBreak_misuse_of_or {s : State} (h : s.phase ≠ .idle ∨ s.loaded = false) :
    startBreak s = .next (misuse s) :=
  startBreak_misuse fun ⟨hp, hl⟩ => h.elim (· hp) (by simp [hl])

/-- R128, R156: LOAD's transaction with a legal length, while another one is in flight. -/
theorem loadTransaction_busy {len : BitVec 4} {s : State} (hl : len.toNat ≤ 8) (hf : s.inFlight = true) (id : BitVec 6)
    (mode : ChecksumMode) (dir : Direction) :
    loadTransaction id len mode dir s = misuse { s with accept := false } := by
  rw [loadTransaction, if_pos ((legalLen_eq_true len).mpr hl), if_pos hf]

/-- R133: RXBUF byte by byte once RXLEN bytes are read. -/
theorem byteAt_receivedBuffer {s : State} (hn : s.frame.rxlen.toNat ≤ s.rx.length) {k : Nat} (hk : k < 12) :
    byteAt (receivedBuffer s) k = if k < s.frame.rxlen.toNat then s.rx.getD k 0 else byteAt s.rxbuf k := by
  rw [receivedBuffer, byteAt_overlay_zero _ _ hk, List.length_take_of_le hn]
  split
  · next h => simp [List.getD_eq_getElem?_getD, h]
  · rfl

/-- Settles O16: the next state is `latch`, and FRAME is `assembleFrame` of the payload. -/
theorem loadLatchesTheTransaction : Obligations.LoadLatchesTheTransaction := by
  intro id len mode dir s hlen hphase
  refine ⟨latch id len mode dir s, exec_load_accepted hlen ((inFlight_eq_false s).mpr hphase), rfl,
    fun k => byteAt_padTo_nil 12 k, rfl, rfl, rfl, rfl, txlenOf_toNat hlen dir, rxlenOf_toNat s.params hlen dir, ?_⟩
  rw [← payload_eq]
  cases dir with
  | write => rfl
  | read => rfl

/-- Settles O21: `afterStartBreak` where StartBreak is enabled, misuse elsewhere. -/
theorem startBreakFromIdle : Obligations.StartBreakFromIdle := by
  refine ⟨fun i s hi hp hl hroom => ?_, fun s h => startBreak_misuse_of_or h⟩
  exact ⟨afterStartBreak s, (exec_startsBreak ⟨hi, hp, hl⟩).trans (startBreak_starts hp hl hroom), rfl,
    ttoOf_toNat s.params s.frame.len s.tbyte⟩

/-- Settles O22: the threshold and the deadline as comparisons of elapsed times, and StepBody's case for each. -/
theorem stepBodyInBreak : Obligations.StepBodyInBreak := by
  refine ⟨fun i s hi hp => ?_, fun s hp => stepBodyFn_misuse hp⟩
  rw [exec_stepsBody hi hp]
  simp only [← elapsed_toNat, ← breakComplete_iff, ← breakComplete_eq_false_iff, ← timedOut_iff,
    ← timedOut_eq_false_iff, ← bodyBytes_eq]
  exact ⟨fun past room => ⟨afterStepBody s, stepBodyFn_sends hp past room, rfl⟩,
    fun early late => stepBodyFn_timesOut hp early late, fun early inTime => stepBodyFn_waits hp early inTime⟩

/-- Settles O23: the deadline as a comparison of elapsed times, and StepRecv's case for each count of bytes. -/
theorem stepRecvInBody : Obligations.StepRecvInBody := by
  refine ⟨fun i s hi hp => ?_, fun s hp => stepRecvFn_misuse hp⟩
  rw [exec_stepsRecv hi hp]
  simp only [← elapsed_toNat, ← timedOut_iff, ← timedOut_eq_false_iff]
  exact ⟨fun enough => ⟨afterStepRecv s, stepRecvFn_receives hp enough, rfl,
      fun k => byteAt_receivedBuffer enough k.isLt⟩,
    fun few late => stepRecvFn_timesOut hp few late, fun few inTime => stepRecvFn_waits hp few inTime⟩

/-- Settles O25: every one of the five commands ends in `misuse`, LOAD and REQUEST after clearing ACCEPT. -/
theorem misuseGoesToDone : Obligations.MisuseGoesToDone := by
  refine ⟨fun i s h => ?_, fun id len mode dir s hlen hphase => ?_⟩
  · rcases h with ⟨rfl, h⟩ | ⟨rfl, h⟩ | ⟨rfl, h⟩
    · exact startBreak_misuse_of_or h
    · exact stepBodyFn_misuse h
    · exact stepRecvFn_misuse h
  · have busy := loadTransaction_busy hlen ((inFlight_eq_true s).mpr hphase) id mode dir
    exact ⟨by rw [exec, execLoad, busy]; rfl, by rw [exec, execRequest, busy]; rfl⟩

end Sys2Proof.Machine
end

section
/-! Polling a transaction that gets no answer (R137): one POLL either ends it in a timeout or leaves enough POLLs that
will, and a transaction that has ended stays as it is. -/

namespace Sys2Proof.Machine

/-- R137: what the pending POLLs of an unanswered transaction end in. -/
def EndedInTimeout (s : State) : Prop := s.phase = .done ∧ s.err.getLsbD 1 = true

/-- R137: the host only polls, at least `δ` microseconds apart; the transport never has RXLEN bytes and has room. -/
def OnlyUnansweredPolls (δ : Nat) (s : State) : Prop :=
  ∀ e ∈ s.pending, e.access = .write s.params.base 4 0x00000002 ∧ δ ≤ e.dt ∧
    e.rx.length < s.frame.rxlen.toNat ∧ 11 ≤ e.txRoom

/-- R137: up to the deciding POLL, the time since StartBreak does not wrap. -/
def ElapsedDoesNotWrap (s : State) : Prop :=
  ∀ (n : Nat) (u : State), run n s = .next u → u.phase ≠ .done →
    (s.elapsed s.tstartTx).toNat + ((s.pending.take (n + 1)).map Event.dt).sum < 2 ^ 32

/-- R137: the pending POLLs, `δ` microseconds apart, reach past the deadline. BREAK needs one POLL more than BODY, since
the POLL that sends the body does not test the deadline (R129). -/
def PollsReachDeadline (δ : Nat) (s : State) : Prop :=
  (s.phase = .brk ∧ (s.elapsed s.tstartTx).toNat ≤ s.tto.toNat ∧
    s.tto.toNat + δ < (s.elapsed s.tstartTx).toNat + s.pending.length * δ) ∨
  (s.phase = .body ∧ 1 ≤ s.pending.length ∧
    s.tto.toNat < (s.elapsed s.tstartTx).toNat + s.pending.length * δ)

/-- R137: a deadline that the pending POLLs have yet to reach leaves at least one of them. -/
theorem PollsReachDeadline.pending_ne_nil {δ : Nat} {s : State} (h : PollsReachDeadline δ s) : s.pending ≠ [] := by
  intro hs
  rcases h with ⟨-, h1, h2⟩ | ⟨-, h1, -⟩
  · rw [hs, List.length_nil, Nat.zero_mul] at h2
    omega
  · simp [hs] at h1

/-- R129, R133: a POLL that sends the body, or that waits within the deadline, leaves enough POLLs. -/
theorem PollsReachDeadline.of_move {δ : Nat} {s t : State} {e : Event} {rest : List Event}
    (reach : PollsReachDeadline δ s) (hs : s.pending = e :: rest) (ht : t.pending = rest) (cadence : δ ≤ e.dt)
    (htto : t.tto = s.tto)
    (helapsed : (t.elapsed t.tstartTx).toNat = (s.elapsed s.tstartTx).toNat + e.dt)
    (move : (s.phase = .brk ∧ t.phase = .body) ∨
      (t.phase = s.phase ∧ (s.elapsed s.tstartTx).toNat + e.dt ≤ s.tto.toNat)) : PollsReachDeadline δ t := by
  rw [PollsReachDeadline, helapsed, htto, ht]
  rw [PollsReachDeadline, hs, List.length_cons, Nat.succ_mul] at reach
  have one_more (h : 0 < rest.length * δ) : 1 ≤ rest.length := Nat.pos_of_mul_pos_right h
  rcases reach with ⟨hp, inTime, reach⟩ | ⟨hp, -, reach⟩
  · rcases move with ⟨-, body⟩ | ⟨same, still⟩
    · exact .inr ⟨body, one_more (by omega), by omega⟩
    · exact .inl ⟨same.trans hp, still, by omega⟩
  · rcases move with ⟨brk, -⟩ | ⟨same, still⟩
    · simp [hp] at brk
    · exact .inr ⟨same.trans hp, one_more (by omega), by omega⟩

/-- R137: a transaction in flight that its pending POLLs will end. -/
structure AwaitsTimeout (δ : Nat) (s : State) : Prop where
  polls : OnlyUnansweredPolls δ s
  noWrap : ElapsedDoesNotWrap s
  reach : PollsReachDeadline δ s

/-- R131, R133: two states of one transaction: the bytes it awaits, its deadline and the time elapsed. -/
structure SameDeadline (s t : State) : Prop where
  frame : t.frame = s.frame
  tto : t.tto = s.tto
  elapsed : t.elapsed t.tstartTx = s.elapsed s.tstartTx

/-- R129, R133: a POLL in flight that finds too few bytes, with room for the body: it ends the transaction in a timeout,
sends the body, or waits, which it does only within the deadline. -/
theorem execPoll_unanswered {s : State} (hf : s.inFlight = true) (hrx : s.rx.length < s.frame.rxlen.toNat)
    (hroom : 11 ≤ s.txRoom) :
    ∃ t, execPoll s = .next t ∧ t.pending = s.pending ∧ t.params = s.params ∧
      (EndedInTimeout t ∨ (SameDeadline s t ∧
        ((s.phase = .brk ∧ t.phase = .body) ∨
          (t.phase = s.phase ∧ (s.elapsed s.tstartTx).toNat ≤ s.tto.toNat)))) := by
  have timeout_flag (u : State) : (errorToDone errorTimeout u).err.getLsbD 1 = true := by simp [errorTimeout]
  rcases (inFlight_eq_true s).mp hf with hp | hp
  · rw [execPoll_brk hp]
    rcases stepBodyFn_cases s with ⟨-, -, -, sends⟩ | ⟨-, -, full, -⟩ | ⟨-, -, -, ends⟩ | ⟨-, -, inTime, waits⟩ |
      ⟨hne, -⟩
    · exact ⟨_, sends, rfl, rfl, .inr ⟨⟨rfl, rfl, rfl⟩, .inl ⟨hp, rfl⟩⟩⟩
    · have := length_bodyBytes_le s
      omega
    · exact ⟨_, ends, rfl, rfl, .inl ⟨rfl, timeout_flag s⟩⟩
    · exact ⟨_, waits, rfl, rfl, .inr ⟨⟨rfl, rfl, rfl⟩, .inr ⟨rfl, (timedOut_eq_false_iff s).mp inTime⟩⟩⟩
    · exact absurd hp hne
  · rw [execPoll_body hp]
    rcases stepRecvFn_cases s with ⟨-, enough, -⟩ | ⟨-, -, -, ends⟩ | ⟨-, -, inTime, waits⟩ | ⟨hne, -⟩
    · omega
    · exact ⟨_, ends, rfl, rfl, .inl ⟨rfl, timeout_flag (rxAvail s)⟩⟩
    · exact ⟨_, waits, rfl, rfl, .inr ⟨⟨rfl, rfl, rfl⟩, .inr ⟨rfl, (timedOut_eq_false_iff s).mp inTime⟩⟩⟩
    · exact absurd hp hne

/-- R11, R37: the time elapsed at an access, as long as it does not wrap. -/
theorem elapsed_arrive {s : State} {ref : Word} {e : Event} (rest : List Event)
    (h : (s.elapsed ref).toNat + e.dt < 2 ^ 32) :
    ((arrive e rest s).elapsed ref).toNat = (s.elapsed ref).toNat + e.dt := by
  have hsum : (arrive e rest s).elapsed ref = s.elapsed ref + BitVec.ofNat 32 e.dt :=
    add_sub_right_comm s.now (BitVec.ofNat 32 e.dt) ref
  rw [hsum, BitVec.toNat_add, BitVec.toNat_ofNat, Nat.add_mod_mod, Nat.mod_eq_of_lt h]

/-- R137: a POLL ends an unanswered transaction in a timeout, or leaves one that the POLLs after it will end. -/
theorem step_awaitsTimeout {δ : Nat} {s : State} {e : Event} {rest : List Event} (h : AwaitsTimeout δ s)
    (hs : s.pending = e :: rest) :
    ∃ t, step s = .next t ∧ t.pending = rest ∧ t.params = s.params ∧ (EndedInTimeout t ∨ AwaitsTimeout δ t) := by
  obtain ⟨polls, noWrap, reach⟩ := h
  rw [OnlyUnansweredPolls, hs] at polls
  obtain ⟨⟨access, cadence, short, room⟩, others⟩ := List.forall_mem_cons.mp polls
  have hf : s.inFlight = true := (inFlight_eq_true s).mpr (reach.imp And.left And.left)
  have hnd : s.phase ≠ .done := by
    rcases reach with ⟨hp, -⟩ | ⟨hp, -⟩ <;> simp [hp]
  have now := elapsed_arrive (ref := s.tstartTx) (e := e) rest (by simpa [hs] using noWrap 0 s rfl hnd)
  obtain ⟨t, ht, tpending, tparams, hcase⟩ := execPoll_unanswered (s := arrive e rest s) hf short room
  have hstep : step s = .next t := (step_poll hs access).trans ht
  refine ⟨t, hstep, tpending, tparams, hcase.imp id fun ⟨same, move⟩ => ?_⟩
  have telapsed : (t.elapsed t.tstartTx).toNat = (s.elapsed s.tstartTx).toNat + e.dt :=
    (congrArg BitVec.toNat same.elapsed).trans now
  replace tpending : t.pending = rest := tpending
  refine ⟨?_, fun n u hn hu => ?_, ?_⟩
  · rw [OnlyUnansweredPolls, tpending, tparams, same.frame]
    exact others
  · have := noWrap (n + 1) u ((run_succ hstep).trans hn) hu
    rw [hs, List.take_succ_cons, List.map_cons, List.sum_cons, ← Nat.add_assoc] at this
    rwa [telapsed, tpending]
  · refine reach.of_move hs tpending cadence same.tto telapsed (move.imp id fun ⟨hp, inTime⟩ => ⟨hp, ?_⟩)
    exact now ▸ inTime

/-- R135, R153: any number of POLLs in DONE leaves STATE and ERR as they are. -/
theorem run_polls_in_done {s : State} (hp : s.phase = .done)
    (polls : ∀ e ∈ s.pending, e.access = .write s.params.base 4 0x00000002) :
    ∃ t, run s.pending.length s = .next t ∧ t.phase = .done ∧ t.err = s.err := by
  induction hs : s.pending generalizing s with
  | nil => exact ⟨s, rfl, hp, rfl⟩
  | cons e rest ih =>
    rw [hs] at polls
    obtain ⟨access, others⟩ := List.forall_mem_cons.mp polls
    have hstep : step s = .next (arrive e rest s) := (step_poll hs access).trans (execPoll_done hp)
    obtain ⟨t, hrun, hphase, herr⟩ := ih (s := arrive e rest s) hp others rfl
    exact ⟨t, (run_succ hstep).trans hrun, hphase, herr⟩

/-- R137: the pending POLLs of an unanswered transaction end it in a timeout. -/
theorem run_awaitsTimeout {δ : Nat} {s : State} (h : AwaitsTimeout δ s) :
    ∃ t, run s.pending.length s = .next t ∧ EndedInTimeout t := by
  induction hs : s.pending generalizing s with
  | nil => exact absurd hs h.reach.pending_ne_nil
  | cons e rest ih =>
    obtain ⟨t, hstep, tpending, tparams, ⟨hp, herr⟩ | hwaits⟩ := step_awaitsTimeout h hs
    · have polls : ∀ e' ∈ t.pending, e'.access = .write t.params.base 4 0x00000002 := fun e' he' =>
        tparams ▸ (h.polls e' (by simp [hs, ← tpending, he'])).1
      obtain ⟨u, hrun, hphase, hkeep⟩ := run_polls_in_done hp polls
      exact ⟨u, (run_succ hstep).trans (tpending ▸ hrun), hphase, hkeep ▸ herr⟩
    · obtain ⟨u, hrun, hended⟩ := ih hwaits tpending
      exact ⟨u, (run_succ hstep).trans hrun, hended⟩

/-- R137: `ceil((TTO + 1) / δ) + 1` POLLs reach past the deadline, with one to spare. -/
theorem lt_mul_of_ceil_lt {tto δ n : Nat} (hδ : 1 ≤ δ) (hn : (tto + 1 + (δ - 1)) / δ + 1 ≤ n) : tto + δ < n * δ := by
  rw [show tto + 1 + (δ - 1) = tto + δ by omega] at hn
  exact (Nat.div_lt_iff_lt_mul hδ).mp hn

/-- Settles O43: at StartBreak the elapsed time is 0, so the bound says that the POLLs reach past the deadline; then
induction over them. -/
theorem pollingEndsInTimeout : Obligations.PollingEndsInTimeout := by
  intro s δ hp _ hstart hδ polls noWrap bound
  have hzero : (s.elapsed s.tstartTx).toNat = 0 := by simp [State.elapsed, hstart]
  have reach : PollsReachDeadline δ s := by
    refine .inl ⟨hp, by omega, ?_⟩
    rw [hzero, Nat.zero_add]
    exact lt_mul_of_ceil_lt hδ bound
  refine run_awaitsTimeout ⟨polls, fun n u hrun hu => ?_, reach⟩
  rw [hzero, Nat.zero_add]
  exact noWrap n u hrun hu

end Sys2Proof.Machine
end

section
/-! What each command does: NOP and the reserved commands, RESET, CONFIG, and REQUEST and POLL as the operations they
perform (R151 to R156, R160). -/

namespace Sys2Proof.Machine

/-- R80: OP is the word modulo 16. -/
theorem opOf_toNat (w : Word) : (opOf w).toNat = w.toNat % 16 := by
  simp [opOf, field]

/-- R151, R160: a command whose OP is NOP's or a reserved one has no effect. -/
theorem exec_of_inert_op {i : Instr} (h : i.op.toNat = 0 ∨ 9 ≤ i.op.toNat) (s : State) : exec i s = .next s := by
  cases i with
  | request | poll | reset | config | load | stepBreak | stepBody | stepRecv => simp [Instr.op] at h
  | nop | reserved9 | reservedA | reservedB | reservedC | reservedD | reservedE | reservedF => rfl

/-- R36: the cleared FRAME reads 0. -/
@[simp] theorem toWord_zero : Frame.zero.toWord = 0 := by decide

/-- R27, R154: RESET leaves the STATUS of power-on reset. -/
theorem status_afterReset (s : State) : (afterReset s).status = 0 := by
  have atPowerOn : State.reset.status = 0 := by decide
  exact atPowerOn

/-- R156: what an accepted LOAD says of its operands and of the state it finds. -/
theorem loadTransaction_accepted {id : BitVec 6} {len : BitVec 4} {mode : ChecksumMode} {dir : Direction} {s : State}
    (h : (loadTransaction id len mode dir s).accept = true) :
    len.toNat ≤ 8 ∧ s.inFlight = false ∧ loadTransaction id len mode dir s = latch id len mode dir s := by
  rcases loadTransaction_cases id len mode dir s with ⟨-, rejected⟩ | ⟨-, -, busy⟩ | accepted
  · simp [rejected] at h
  · simp [busy] at h
  · exact accepted

/-- R152: REQUEST when its LOAD is not accepted. -/
theorem exec_request_not_accepted {id : BitVec 6} {len : BitVec 4} {mode : ChecksumMode} {dir : Direction} {s : State}
    (h : (loadTransaction id len mode dir s).accept = false) :
    exec (.request id len mode dir) s = .next (loadTransaction id len mode dir s) := by
  simp [exec, execRequest, h]

/-- R153: POLL in IDLE with nothing latched. -/
theorem execPoll_idle_empty {s : State} (hp : s.phase = .idle) (hl : s.loaded = false) : execPoll s = .next s := by
  simp [execPoll, hp, hl]

/-- R153: POLL on the transaction that a LOAD has latched. -/
theorem execPoll_latch (id : BitVec 6) (len : BitVec 4) (mode : ChecksumMode) (dir : Direction) (s : State) :
    execPoll (latch id len mode dir s) = startBreak (latch id len mode dir s) :=
  execPoll_idle (latch_phase ..) (latch_loaded ..)

/-- R110: validation never raises ERROR_STATE. -/
theorem getLsbD_zero_validateResponse (p : Params) (f : Frame) (t r : Vector Byte 12) :
    (validateResponse p f t r).getLsbD 0 = false := by
  rw [getLsbD_validateResponse]
  simp

/-- R110, R131, R153, R181: a POLL ORs flags into ERR, a timeout's or those of validation, and none of them is
ERROR_STATE. -/
theorem execPoll_err {s t : State} (h : execPoll s = .next t) :
    ∃ f : BitVec 4, f.getLsbD 0 = false ∧ t.err = s.err ||| f := by
  have kept {u : State} (hu : u.err = s.err) : ∃ f : BitVec 4, f.getLsbD 0 = false ∧ u.err = s.err ||| f :=
    ⟨0, rfl, by simp [hu]⟩
  rcases execPoll_cases s with ⟨hp, hl, e⟩ | ⟨hp, e⟩ | ⟨hp, e⟩ | ⟨-, e⟩ <;> rw [e] at h
  · rcases startBreak_cases s with ⟨-, -, -, starts⟩ | ⟨-, -, -, full⟩ | ⟨hne, -⟩
    · cases starts.symm.trans h
      exact kept rfl
    · cases full.symm.trans h
    · exact absurd ⟨hp, hl⟩ hne
  · rcases stepBodyFn_cases s with ⟨-, -, -, sends⟩ | ⟨-, -, -, full⟩ | ⟨-, -, -, ends⟩ | ⟨-, -, -, waits⟩ | ⟨hne, -⟩
    · cases sends.symm.trans h
      exact kept rfl
    · cases full.symm.trans h
    · cases ends.symm.trans h
      exact ⟨errorTimeout, rfl, rfl⟩
    · cases waits.symm.trans h
      exact kept rfl
    · exact absurd hp hne
  · rcases stepRecvFn_cases s with ⟨-, -, receives⟩ | ⟨-, -, -, ends⟩ | ⟨-, -, -, waits⟩ | ⟨hne, -⟩
    · cases receives.symm.trans h
      exact ⟨_, getLsbD_zero_validateResponse .., rfl⟩
    · cases ends.symm.trans h
      exact ⟨errorTimeout, rfl, rfl⟩
    · cases waits.symm.trans h
      exact kept rfl
    · exact absurd hp hne
  · cases h
    exact kept rfl

/-- Settles O13: OP alone decides that a command is inert, be the command given by name or by a word. -/
theorem nopAndReservedChangeNothing : Obligations.NopAndReservedChangeNothing := by
  refine ⟨fun i s hi => exec_of_inert_op ?_ s, fun w s hw => exec_of_inert_op ?_ s⟩
  · revert i
    decide
  · rwa [decodeWord_op, opOf_toNat]

/-- Settles O14: the next state is `afterReset`, and its buffers are padded from nothing. -/
theorem resetCommandClearsTheTransaction : Obligations.ResetCommandClearsTheTransaction := fun s =>
  ⟨afterReset s, execReset_eq s, rfl, status_afterReset s, toWord_zero,
    fun k => ⟨byteAt_padTo_nil 12 k, byteAt_padTo_nil 12 k⟩⟩

/-- Settles O15: an obeyed CONFIG is `configure`, whose two durations lose nothing in their registers. -/
theorem configSetsTheRateOrIsIgnored : Obligations.ConfigSetsTheRateOrIsIgnored := by
  refine ⟨fun baud s hmin hmax hphase => ?_, fun baud s h => ?_⟩
  · have obeyed : exec (.config baud) s = .next (configure baud s) := by
      simp [exec, execConfig, (legalBaud_eq_true baud).mpr ⟨hmin, hmax⟩, (inFlight_eq_false s).mpr hphase]
    obtain ⟨tbyte, bound⟩ := tbyteOf_toNat hmin
    refine ⟨configure baud s, obeyed, rfl, tbyte, ?_⟩
    rw [configure_tbrk, tbrkOf_toNat s.params (tbyte.trans_le bound), tbyte]
  · rcases execConfig_cases baud s with ⟨legal, idle, -⟩ | ⟨-, ignored⟩
    · rw [legalBaud_eq_true] at legal
      rcases h with low | high | flight
      · omega
      · omega
      · simp [(inFlight_eq_true s).mpr flight] at idle
    · exact ignored

/-- Settles O20: an accepted LOAD has latched, and of a latched transaction REQUEST, STEP_BREAK and POLL perform the one
StartBreak. -/
theorem requestIsLoadThenStartBreak : Obligations.RequestIsLoadThenStartBreak := by
  intro id len mode dir s
  refine ⟨loadTransaction id len mode dir s, rfl, fun haccept => ?_, exec_request_not_accepted⟩
  obtain ⟨hlen, hflight, hlatch⟩ := loadTransaction_accepted haccept
  rw [hlatch]
  exact ⟨hlen, (inFlight_eq_false s).mp hflight, rfl, rfl, exec_request_accepted hlen hflight,
    execPoll_latch id len mode dir s⟩

/-- Settles O24: POLL's equation in each state, the flags it can raise, and O20 for the LOAD before it. -/
theorem pollPerformsTheEnabledStep : Obligations.PollPerformsTheEnabledStep := by
  refine ⟨fun s => ⟨execPoll_idle, execPoll_idle_empty, execPoll_brk, execPoll_body, execPoll_done⟩,
    fun s t h => ?_, fun id len mode dir s u hload haccept => ?_⟩
  · obtain ⟨f, hf, herr⟩ := execPoll_err h
    rw [herr, BitVec.getLsbD_or, hf, Bool.or_false]
  · obtain ⟨v, hv, accepted, -⟩ := requestIsLoadThenStartBreak id len mode dir s
    obtain rfl := Host.Outcome.next.inj (hv.symm.trans hload)
    obtain ⟨-, -, -, -, request, poll⟩ := accepted haccept
    exact poll.trans request.symm

end Sys2Proof.Machine
end

section
/-! Decoding a command's own word and bytes (R80 to R83, R87), and the words of the spec. -/

namespace Sys2Proof

/-- R56, R87: four bytes of a word, and anything after them, decode to the word's command. -/
theorem decode_bytesOfWord (w : Word) (rest : List Byte) :
    decode (bytesOfWord w ++ rest) = .ok (decodeWord w, rest) := by
  rw [bytesOfWord, List.cons_append, List.cons_append, List.cons_append, List.cons_append, List.nil_append, decode,
    wordOfBytes_extract]

/-- Settles O1: the word decodes to its command, and its four bytes give the word back. -/
theorem decodeEncodeRoundTrip : Obligations.DecodeEncodeRoundTrip := fun i rest =>
  ⟨decodeWord_encode i, by rw [encodeBytes, decode_bytesOfWord, decodeWord_encode]⟩

/-- Settles O3: six closed words. -/
theorem wordsOfTheSpecDecode : Obligations.WordsOfTheSpecDecode := by
  unfold Obligations.WordsOfTheSpecDecode
  decide

end Sys2Proof
end

section
/-! The protected identifier and the checksum: when two checksums are equal (R101 to R106). -/

namespace Sys2Proof.Machine

/-- R89: ID is the low six bits of PID. -/
@[simp] theorem pidOf_id (id : BitVec 6) : (pidOf id).extractLsb' 0 6 = id :=
  BitVec.extractLsb'_append_eq_right

/-- R89, R102: distinct identifiers have distinct PIDs. -/
theorem pidOf_injective : Function.Injective pidOf :=
  Function.LeftInverse.injective pidOf_id

/-- R101, R102: the two parity bits keep a PID from being all zeros or all ones. -/
theorem pidOf_mod_255 (id : BitVec 6) : 0 < (pidOf id).toNat ∧ (pidOf id).toNat < 255 := by
  revert id
  decide

/-- Settles O36: PID's fields are those it is put together from, and its values are closed. -/
theorem pidCarriesIdAndParity : Obligations.PidCarriesIdAndParity := by
  refine ⟨fun id => ⟨pidOf_id id, ?_⟩, fun id id' h => pidOf_injective h, by decide⟩
  revert id
  decide

/-- R104: the checksum is the complement of the accumulator over the covered bytes, which is 0 only if their sum is, and
otherwise the value in 1..255 that their sum has modulo 255. -/
theorem computeChecksum_spec (pid : Byte) (data : List Byte) (mode : ChecksumMode) :
    ∃ acc ≤ 255, (computeChecksum pid data mode).toNat = 255 - acc ∧ acc % 255 = coveredSum pid data mode % 255 ∧
      (acc = 0 ↔ coveredSum pid data mode = 0) :=
  have ⟨bound, residue, zero⟩ := foldl_addFold_spec data (checksumStart_le pid mode)
  ⟨_, bound, computeChecksum_toNat pid data mode, residue, zero⟩

/-- R106: two checksums are equal exactly when the covered sums agree modulo 255 and in being 0. -/
theorem computeChecksum_eq_iff (pid pid' : Byte) (data data' : List Byte) (mode mode' : ChecksumMode) :
    computeChecksum pid data mode = computeChecksum pid' data' mode' ↔
      coveredSum pid data mode % 255 = coveredSum pid' data' mode' % 255 ∧
        (coveredSum pid data mode = 0 ↔ coveredSum pid' data' mode' = 0) := by
  obtain ⟨acc, bound, value, residue, zero⟩ := computeChecksum_spec pid data mode
  obtain ⟨acc', bound', value', residue', zero'⟩ := computeChecksum_spec pid' data' mode'
  rw [← BitVec.toNat_inj, value, value']
  omega

/-- R106: a byte of the data adds its value to the covered sum, wherever it stands. -/
theorem coveredSum_insert (pid : Byte) (before after : List Byte) (b : Byte) (mode : ChecksumMode) :
    coveredSum pid (before ++ b :: after) mode = coveredSum pid (before ++ after) mode + b.toNat := by
  simp only [coveredSum, List.map_append, List.map_cons, List.sum_append, List.sum_cons]
  omega

/-- R106(c): flipping a bit changes a byte by less than 255, and not by 0. -/
theorem flipped_ne_mod_255 (b : Byte) (k : Fin 8) (sum : Nat) :
    (sum + (b ^^^ (1#8 <<< k.val)).toNat) % 255 ≠ (sum + b.toNat) % 255 := by
  have differ : b ^^^ (1#8 <<< k.val) ≠ b ∧ (b ^^^ (1#8 <<< k.val)).toNat ≠ b.toNat + 255 ∧
      b.toNat ≠ (b ^^^ (1#8 <<< k.val)).toNat + 255 := by
    revert b k
    decide
  rw [Ne, ← BitVec.toNat_inj] at differ
  omega

/-- Settles O37: the accumulator is in 0..255, with its value modulo 255 and its zero those of the covered sum. -/
theorem checksumClosedForm : Obligations.ChecksumClosedForm := by
  intro pid data mode
  obtain ⟨acc, bound, value, residue, zero⟩ := computeChecksum_spec pid data mode
  rw [value]
  split <;> omega

/-- Settles O38: a permutation keeps the sum, classic mode does not cover PID, and two PIDs, both in 1..254, are not
congruent modulo 255. -/
theorem checksumOrderAndPid : Obligations.ChecksumOrderAndPid := by
  refine ⟨fun pid data data' mode perm => ?_, fun _ _ _ => rfl, fun id id' data hne heq => ?_⟩
  · rw [computeChecksum_eq_iff, coveredSum, coveredSum, (perm.map BitVec.toNat).sum_eq]
    exact ⟨rfl, Iff.rfl⟩
  · rw [computeChecksum_eq_iff] at heq
    have residue : ((pidOf id).toNat + (data.map BitVec.toNat).sum) % 255 =
      ((pidOf id').toNat + (data.map BitVec.toNat).sum) % 255 := heq.1
    have bounds := pidOf_mod_255 id
    have bounds' := pidOf_mod_255 id'
    exact hne (pidOf_injective (BitVec.eq_of_toNat_eq (by omega)))

/-- Settles O39: a flip changes the sum modulo 255; a 0x00 for a 0xFF changes it by 255, and neither sum is 0. -/
theorem checksumDetectsSingleBitFlips : Obligations.ChecksumDetectsSingleBitFlips := by
  refine ⟨fun pid before after b k mode heq => ?_, fun pid before after mode hsum => ?_⟩
  · rw [computeChecksum_eq_iff, coveredSum_insert, coveredSum_insert] at heq
    exact flipped_ne_mod_255 b k _ heq.1
  · rw [computeChecksum_eq_iff, coveredSum_insert, coveredSum_insert]
    simp [hsum]

end Sys2Proof.Machine
end

section
/-! The engine's invariants (R42): what they amount to in IDLE, in flight and in DONE, that each thing a command can do
keeps them, and that they hold after reset. -/

namespace Sys2Proof.Machine

/-- R126, R88: the data bytes of a master-write's outgoing buffer are those it was assembled from. -/
theorem slice_outgoingBytes (id : BitVec 6) {data : List Byte} (mode : ChecksumMode) (h : data.length ≤ 8) :
    slice (padTo 12 (outgoingBytes id data mode .write)) 3 data.length = data := by
  rw [slice_padTo _ (by simp [outgoingBytes]; omega) (by omega)]
  simp [outgoingBytes]

/-- R88, R125, R126: an accepted LOAD leaves a transaction latched. -/
theorem latched_latch (id : BitVec 6) {len : BitVec 4} (mode : ChecksumMode) (dir : Direction) (s : State)
    (hlen : len.toNat ≤ 8) : (latch id len mode dir s).Latched := by
  have hid : (latch id len mode dir s).frame.id = id := pidOf_id id
  rw [State.Latched, hid]
  refine ⟨(legalLen_eq_true len).mpr hlen, rfl, rfl, rfl, ?_⟩
  cases dir with
  | write =>
    have hdata := length_payload s hlen
    have hsent : (latch id len mode .write s).sentData = s.payload len := by
      have kept := slice_outgoingBytes id mode (hdata.trans_le hlen)
      rwa [hdata] at kept
    rw [hsent]
    exact ⟨rfl, rfl⟩
  | read => exact ⟨rfl, rfl⟩

/-- R32 to R34, R40, R42: in IDLE the invariants say that everything of the last transaction is cleared. -/
theorem inv_of_idle {t : State} (hp : t.phase = .idle) (timing : t.TimingInv)
    (hframe : if t.loaded then t.Latched else t.Unlatched) (hzero : t.tto = 0 ∧ t.tstartBrk = 0 ∧ t.tstartTx = 0)
    (herr : t.err = 0) (hrx : t.rxdone = false ∧ t.rxbuf = padTo 12 []) : t.Inv := by
  obtain ⟨hdone, hbuf⟩ := hrx
  have hf : t.inFlight = false := (inFlight_eq_false t).mpr (.inl hp)
  refine ⟨timing, ?_, ⟨by simp [hf], fun _ => hzero⟩, fun _ => herr, by simp [hdone], fun _ => hbuf, by simp [hbuf]⟩
  cases hl : t.loaded <;> rw [hl] at hframe
  · exact ⟨fun _ => hp, by simp [hl, hf], fun _ => hframe, .inr hframe⟩
  · exact ⟨fun _ => hp, fun _ => hframe, by simp [hl], .inl hframe⟩

/-- R42: in BREAK and BODY the invariants say that the transaction has its frame and its deadline, and neither an error
nor an answer yet. -/
theorem inv_of_inFlight {t : State} (hf : t.inFlight = true) (timing : t.TimingInv) (hl : t.loaded = false)
    (latched : t.Latched) (deadline : t.tstartTx = t.tstartBrk ∧ t.tto = ttoOf t.params t.frame.len t.tbyte)
    (herr : t.err = 0) (hrx : t.rxdone = false ∧ t.rxbuf = padTo 12 []) : t.Inv := by
  obtain ⟨hdone, hbuf⟩ := hrx
  have hidle : t.phase ≠ .idle := by
    rcases (inFlight_eq_true t).mp hf with hp | hp <;> simp [hp]
  exact ⟨timing, ⟨by simp [hl], fun _ => latched, fun h => absurd h.1 hidle, .inl latched⟩,
    ⟨fun _ => deadline, fun h => absurd h hidle⟩, fun _ => herr, by simp [hdone], fun _ => hbuf, by simp [hbuf]⟩

/-- R42: in DONE the invariants leave the deadline and ERR free. -/
theorem inv_of_done {t : State} (hp : t.phase = .done) (timing : t.TimingInv) (hl : t.loaded = false)
    (hframe : t.Latched ∨ t.Unlatched) (hrx : t.ReceiveInv) : t.Inv := by
  have hf : t.inFlight = false := (inFlight_eq_false t).mpr (.inr hp)
  exact ⟨timing, ⟨by simp [hl], by simp [hl, hf], by simp [hp], hframe⟩, ⟨by simp [hf], by simp [hp]⟩,
    fun h => absurd hp h, hrx⟩

/-- R7, R29 to R31: legal parameters, and the durations of a legal BAUD. -/
theorem timing_of_inv {s : State} (h : s.Inv) : s.TimingInv := h.1

/-- R24: LOADED only in IDLE. -/
theorem loaded_eq_false_of_inv {s : State} (h : s.Inv) (hp : s.phase ≠ .idle) : s.loaded = false := by
  obtain ⟨-, ⟨loadedIdle, -⟩, -⟩ := h
  exact Bool.eq_false_iff.mpr fun hl => hp (loadedIdle hl)

/-- R40: before DONE nothing has been received. -/
theorem nothing_received_of_inv {s : State} (h : s.Inv) (hp : s.phase ≠ .done) :
    s.rxdone = false ∧ s.rxbuf = padTo 12 [] := by
  obtain ⟨-, -, -, -, rxdoneDone, emptyBuf, -⟩ := h
  have hdone : s.rxdone = false := Bool.eq_false_iff.mpr fun hd => hp (rxdoneDone hd)
  exact ⟨hdone, emptyBuf hdone⟩

/-- R42, R43: power-on reset with legal parameters meets the invariants. -/
theorem inv_powerOn {s : State} (hp : s.params.Legal) : (powerOn s).Inv := by
  have ⟨_, _, low, high⟩ := hp
  exact inv_of_idle rfl ⟨hp, (legalBaud_eq_true _).mpr ⟨low, high⟩, rfl, rfl⟩ ⟨rfl, rfl⟩ ⟨rfl, rfl, rfl⟩ rfl ⟨rfl, rfl⟩

theorem inv_afterReset {s : State} (h : s.Inv) : (afterReset s).Inv :=
  have timing := timing_of_inv h
  inv_of_idle rfl timing ⟨rfl, rfl⟩ ⟨rfl, rfl, rfl⟩ rfl ⟨rfl, rfl⟩

theorem inv_latch {s : State} (h : s.Inv) (id : BitVec 6) {len : BitVec 4} (mode : ChecksumMode) (dir : Direction)
    (hlen : len.toNat ≤ 8) : (latch id len mode dir s).Inv :=
  have timing := timing_of_inv h
  inv_of_idle rfl timing (latched_latch id mode dir s hlen) ⟨rfl, rfl, rfl⟩ rfl ⟨rfl, rfl⟩

/-- R155: CONFIG derives both durations again. -/
theorem inv_configure {s : State} (h : s.Inv) {b : BitVec 24} (hb : legalBaud b = true) (hf : s.inFlight = false) :
    (configure b s).Inv := by
  obtain ⟨⟨legal, -⟩, frame, ⟨-, idleZero⟩, err, receive⟩ := h
  refine ⟨⟨legal, hb, rfl, rfl⟩, frame, ⟨fun h => ?_, idleZero⟩, err, receive⟩
  exact absurd (hf.symm.trans h) (by decide)

theorem inv_misuse {s : State} (h : s.Inv) : (misuse s).Inv := by
  obtain ⟨timing, ⟨-, -, -, frame⟩, -, -, -, emptyBuf, tail⟩ := h
  exact inv_of_done rfl timing rfl frame ⟨fun _ => rfl, emptyBuf, tail⟩

theorem inv_afterStartBreak {s : State} (h : s.Inv) (hp : s.phase = .idle) (hl : s.loaded = true) :
    (afterStartBreak s).Inv := by
  have received := nothing_received_of_inv h (by simp [hp])
  obtain ⟨timing, ⟨-, latched, -⟩, -, err, -⟩ := h
  exact inv_of_inFlight rfl timing rfl (latched (.inl hl)) ⟨rfl, rfl⟩ (err (by simp [hp])) received

theorem inv_afterStepBody {s : State} (h : s.Inv) (hp : s.phase = .brk) : (afterStepBody s).Inv := by
  have received := nothing_received_of_inv h (by simp [hp])
  have hl := loaded_eq_false_of_inv h (by simp [hp])
  have hf : s.inFlight = true := (inFlight_eq_true s).mpr (.inl hp)
  obtain ⟨timing, ⟨-, latched, -⟩, ⟨deadline, -⟩, err, -⟩ := h
  exact inv_of_inFlight rfl timing hl (latched (.inr hf)) (deadline hf) (err (by simp [hp])) received

/-- R131: a timeout, in either state in flight. -/
theorem inv_errorToDone {s : State} (h : s.Inv) (hp : s.phase ≠ .idle) (f : BitVec 4) : (errorToDone f s).Inv := by
  have hl := loaded_eq_false_of_inv h hp
  obtain ⟨timing, ⟨-, -, -, frame⟩, -, -, -, emptyBuf, tail⟩ := h
  exact inv_of_done rfl timing hl frame ⟨fun _ => rfl, emptyBuf, tail⟩

theorem inv_afterStepRecv {s : State} (h : s.Inv) (hp : s.phase = .body) (hn : s.frame.rxlen.toNat ≤ s.rx.length) :
    (afterStepRecv s).Inv := by
  have hl := loaded_eq_false_of_inv h (by simp [hp])
  obtain ⟨timing, ⟨-, -, -, frame⟩, -, -, -, -, tail⟩ := h
  refine inv_of_done rfl timing hl frame ⟨fun _ => rfl, fun h => Bool.noConfusion h, fun k hk => ?_⟩
  exact (byteAt_receivedBuffer hn k.isLt).trans ((if_neg (Nat.not_lt.mpr hk)).trans (tail k hk))

/-- R42: every command keeps the invariants. ACCEPT, the clock, the transport and the records are in none of them. -/
theorem exec_keeps_inv {i : Instr} {s t : State} (h : s.Inv) (ht : exec i s = .next t) : t.Inv := by
  rcases exec_cases ht with rfl | ⟨-, rfl⟩ | ⟨b, -, hb, hf, rfl⟩ |
    ⟨id, len, mode, dir, -, ⟨-, rfl⟩ | ⟨-, -, rfl⟩⟩ | ⟨id, len, mode, dir, -, hlen, -, rfl⟩ |
    ⟨id, len, mode, dir, -, hlen, -, -, rfl⟩ | ⟨-, hp, hl, -, rfl⟩ | ⟨-, rfl⟩ |
    ⟨-, hp, ⟨-, -, rfl⟩ | ⟨-, -, rfl⟩⟩ | ⟨-, hp, ⟨hn, rfl⟩ | ⟨-, -, rfl⟩ | ⟨-, -, rfl⟩⟩
  · exact h
  · exact inv_afterReset h
  · exact inv_configure h hb hf
  · exact h
  · exact inv_misuse h
  · exact inv_latch h id mode dir hlen
  · exact inv_afterStartBreak (inv_latch h id mode dir hlen) rfl rfl
  · exact inv_afterStartBreak h hp hl
  · exact inv_misuse h
  · exact inv_afterStepBody h hp
  · exact inv_errorToDone h (by simp [hp]) errorTimeout
  · exact inv_afterStepRecv h hp hn
  · exact inv_errorToDone (s := rxAvail s) h (by simp [hp]) errorTimeout
  · exact h

/-- Settles O33: power-on reset sets up the invariants, reads and stores touch none of their fields, and a command keeps
them by `exec_keeps_inv`. -/
theorem stepKeepsTheInvariants : Obligations.StepKeepsTheInvariants := by
  intro s t h ht
  rcases step_cases ht with ⟨-, rfl⟩ | ⟨e, rest, -, rfl | ⟨v, rfl⟩ | ⟨d, rfl⟩ | ⟨w, hw⟩⟩
  · exact h
  · exact inv_powerOn (timing_of_inv h).1
  · exact h
  · exact h
  · exact exec_keeps_inv (s := arrive e rest s) h hw

/-- Settles O34: `State.resetWith p` is a power-on reset with parameters `p`, and the defaults are legal. -/
theorem resetMeetsTheInvariants : Obligations.ResetMeetsTheInvariants := by
  have legal {p : Params} (hp : p.Legal) : (State.resetWith p).Inv := inv_powerOn (s := State.resetWith p) hp
  exact ⟨legal (by decide), fun p hp => legal hp⟩

/-- Settles O35: a latched buffer begins with the break placeholder and is padded with zeros from TXLEN on; without one
the buffer and the lengths are 0. -/
theorem breakPlaceholderIsZero : Obligations.BreakPlaceholderIsZero := by
  rintro s ⟨-, ⟨-, -, -, latched | unlatched⟩, -⟩
  · obtain ⟨legal, -, htx, hrx, -, hbuf⟩ := latched
    have hlen := (legalLen_eq_true _).mp legal
    have hsent : s.sentData.length = s.frame.len.toNat := by
      rw [State.sentData, length_slice]
      omega
    have txlen := txlenOf_toNat hlen s.frame.dir
    have rxlen := rxlenOf_toNat s.params hlen s.frame.dir
    have filled := length_outgoingBytes s.frame.id s.frame.mode s.frame.dir hlen hsent
    rw [htx, hrx, hbuf]
    refine ⟨fun _ => ?_, ?_, ?_, fun k hk => byteAt_padTo_of_length_le 12 (filled.trans_le hk)⟩
    · exact (byteAt_padTo_of_lt _ (by decide)).trans (getD_outgoingBytes_header _ _ _ _ (by decide))
    · rw [txlen]
      split <;> omega
    · rw [rxlen]
      split <;> omega
  · obtain ⟨hframe, hbuf⟩ := unlatched
    rw [hframe, hbuf]
    exact ⟨fun _ => rfl, by decide, by decide, fun k _ => byteAt_padTo_nil 12 k⟩

end Sys2Proof.Machine
end

section
/-! The absolute time (R37): of two states that differ only in it, each operation makes two that again differ only in
it, or stops in the same way. -/

namespace Sys2Proof.Machine

/-- R37: the state with another clock and other timestamps. -/
def State.reclock (n b x : Word) (s : State) : State := { s with now := n, tstartBrk := b, tstartTx := x }

/-- R37: two outcomes that differ only in the absolute time of the next state. -/
inductive OutcomesAlike : Host.Outcome State Fault Refusal → Host.Outcome State Fault Refusal → Prop
  | next {t v : State} (h : SameButClock t v) : OutcomesAlike (.next t) (.next v)
  | fault (r : Fault) : OutcomesAlike (.fault r) (.fault r)
  | refused (r : Refusal) : OutcomesAlike (.refused r) (.refused r)

theorem SameButClock.eq_reclock {s u : State} (h : SameButClock s u) :
    u = s.reclock u.now u.tstartBrk u.tstartTx := h.1

/-- R11, R37: outside BREAK and BODY the timestamps are free. -/
theorem sameButClock_of_not_inFlight {s : State} (hf : s.inFlight = false) (n b x : Word) :
    SameButClock s (s.reclock n b x) :=
  ⟨rfl, fun h => absurd (hf.symm.trans h) (by decide)⟩

theorem sameButClock_misuse (n b x : Word) (s : State) : SameButClock (misuse s) (misuse (s.reclock n b x)) :=
  sameButClock_of_not_inFlight rfl n b x

theorem sameButClock_errorToDone (f : BitVec 4) (n b x : Word) (s : State) :
    SameButClock (errorToDone f s) (errorToDone f (s.reclock n b x)) :=
  sameButClock_of_not_inFlight rfl n b x

/-- R127: a break starts at time 0 of its own. -/
theorem sameButClock_afterStartBreak (n b x : Word) (s : State) :
    SameButClock (afterStartBreak s) (afterStartBreak (s.reclock n b x)) :=
  have at_zero : n - n = s.now - s.now := (BitVec.sub_self n).trans (BitVec.sub_self s.now).symm
  ⟨rfl, fun _ => ⟨at_zero, at_zero⟩⟩

/-- R127: StartBreak reads the clock only to store it. -/
theorem startBreak_alike (n b x : Word) (s : State) :
    OutcomesAlike (startBreak s) (startBreak (s.reclock n b x)) := by
  rcases startBreak_cases s with ⟨hp, hl, hr, starts⟩ | ⟨hp, hl, hr, full⟩ | ⟨h, missed⟩
  · rw [starts, startBreak_starts (s := s.reclock n b x) hp hl hr]
    exact .next (sameButClock_afterStartBreak n b x s)
  · rw [full, startBreak_full (s := s.reclock n b x) hp hl hr]
    exact .refused _
  · rw [missed, startBreak_misuse (s := s.reclock n b x) h]
    exact .next (sameButClock_misuse n b x s)

/-- R122: the threshold is on elapsed time. -/
theorem SameButClock.breakComplete_eq {s u : State} (h : SameButClock s u) (hf : s.inFlight = true) :
    u.breakComplete = s.breakComplete := by
  rw [State.breakComplete, State.breakComplete, (h.2 hf).1, h.eq_reclock]
  rfl

/-- R131: so is the deadline. -/
theorem SameButClock.timedOut_eq {s u : State} (h : SameButClock s u) (hf : s.inFlight = true) :
    u.timedOut = s.timedOut := by
  rw [State.timedOut, State.timedOut, (h.2 hf).2, h.eq_reclock]
  rfl

theorem stepBodyFn_alike {n b x : Word} {s : State} (h : SameButClock s (s.reclock n b x)) :
    OutcomesAlike (stepBodyFn s) (stepBodyFn (s.reclock n b x)) := by
  by_cases hp : s.phase = .brk
  · have hf : s.inFlight = true := (inFlight_eq_true s).mpr (.inl hp)
    have same_threshold := h.breakComplete_eq hf
    have same_deadline := h.timedOut_eq hf
    rcases stepBodyFn_cases s with ⟨-, hb, hr, sends⟩ | ⟨-, hb, hr, full⟩ | ⟨-, hb, ht, ends⟩ | ⟨-, hb, ht, waits⟩ |
      ⟨hne, -⟩
    · rw [sends, stepBodyFn_sends (s := s.reclock n b x) hp (same_threshold.trans hb) hr]
      exact .next ⟨rfl, fun _ => h.2 hf⟩
    · rw [full, stepBodyFn_full (s := s.reclock n b x) hp (same_threshold.trans hb) hr]
      exact .refused _
    · rw [ends, stepBodyFn_timesOut (s := s.reclock n b x) hp (same_threshold.trans hb) (same_deadline.trans ht)]
      exact .next (sameButClock_errorToDone errorTimeout n b x s)
    · rw [waits, stepBodyFn_waits (s := s.reclock n b x) hp (same_threshold.trans hb) (same_deadline.trans ht)]
      exact .next h
    · exact absurd hp hne
  · rw [stepBodyFn_misuse hp, stepBodyFn_misuse (s := s.reclock n b x) hp]
    exact .next (sameButClock_misuse n b x s)

theorem stepRecvFn_alike {n b x : Word} {s : State} (h : SameButClock s (s.reclock n b x)) :
    OutcomesAlike (stepRecvFn s) (stepRecvFn (s.reclock n b x)) := by
  by_cases hp : s.phase = .body
  · have same_deadline := h.timedOut_eq ((inFlight_eq_true s).mpr (.inr hp))
    rcases stepRecvFn_cases s with ⟨-, hn, receives⟩ | ⟨-, hn, ht, ends⟩ | ⟨-, hn, ht, waits⟩ | ⟨hne, -⟩
    · rw [receives, stepRecvFn_receives (s := s.reclock n b x) hp hn]
      exact .next (sameButClock_of_not_inFlight rfl n b x)
    · rw [ends, stepRecvFn_timesOut (s := s.reclock n b x) hp hn (same_deadline.trans ht)]
      exact .next (sameButClock_errorToDone errorTimeout n b x (rxAvail s))
    · rw [waits, stepRecvFn_waits (s := s.reclock n b x) hp hn (same_deadline.trans ht)]
      exact .next ⟨rfl, h.2⟩
    · exact absurd hp hne
  · rw [stepRecvFn_misuse hp, stepRecvFn_misuse (s := s.reclock n b x) hp]
    exact .next (sameButClock_misuse n b x s)

/-- R156: LOAD of a legal length while nothing is in flight. -/
theorem loadTransaction_free {len : BitVec 4} {s : State} (hl : len.toNat ≤ 8) (hf : s.inFlight = false)
    (id : BitVec 6) (mode : ChecksumMode) (dir : Direction) :
    loadTransaction id len mode dir s = latch id len mode dir s := by
  rw [loadTransaction, if_pos ((legalLen_eq_true len).mpr hl), if_neg (by simp [hf])]

/-- R156: LOAD reads no clock; a latched transaction has not started yet. -/
theorem sameButClock_loadTransaction {n b x : Word} {s : State} (h : SameButClock s (s.reclock n b x)) (id : BitVec 6)
    (len : BitVec 4) (mode : ChecksumMode) (dir : Direction) :
    SameButClock (loadTransaction id len mode dir s) (loadTransaction id len mode dir (s.reclock n b x)) := by
  rcases loadTransaction_cases id len mode dir s with ⟨hl, rejected⟩ | ⟨hl, hf, busy⟩ | ⟨hl, hf, accepted⟩
  · rw [rejected, loadTransaction_illegal hl]
    exact ⟨rfl, h.2⟩
  · rw [busy, loadTransaction_busy (s := s.reclock n b x) hl hf]
    exact sameButClock_misuse n b x { s with accept := false }
  · rw [accepted, loadTransaction_free (s := s.reclock n b x) hl hf]
    exact sameButClock_of_not_inFlight rfl n 0 0

theorem exec_request_alike {n b x : Word} {s : State} (h : SameButClock s (s.reclock n b x)) (id : BitVec 6)
    (len : BitVec 4) (mode : ChecksumMode) (dir : Direction) :
    OutcomesAlike (exec (.request id len mode dir) s) (exec (.request id len mode dir) (s.reclock n b x)) := by
  have loads := sameButClock_loadTransaction h id len mode dir
  cases accepted : (loadTransaction id len mode dir s).accept
  · have rejected := (congrArg State.accept loads.eq_reclock).trans accepted
    rw [exec_request_not_accepted accepted, exec_request_not_accepted rejected]
    exact .next loads
  · obtain ⟨hl, hf, -⟩ := loadTransaction_accepted accepted
    rw [exec_request_accepted hl hf, exec_request_accepted (s := s.reclock n b x) hl hf]
    exact startBreak_alike n 0 0 (latch id len mode dir s)

theorem execPoll_alike {n b x : Word} {s : State} (h : SameButClock s (s.reclock n b x)) :
    OutcomesAlike (execPoll s) (execPoll (s.reclock n b x)) := by
  rcases execPoll_cases s with ⟨hp, hl, e⟩ | ⟨hp, e⟩ | ⟨hp, e⟩ | ⟨hp | ⟨hp, hl⟩, e⟩
  · rw [e, execPoll_idle (s := s.reclock n b x) hp hl]
    exact startBreak_alike n b x s
  · rw [e, execPoll_brk (s := s.reclock n b x) hp]
    exact stepBodyFn_alike h
  · rw [e, execPoll_body (s := s.reclock n b x) hp]
    exact stepRecvFn_alike h
  · rw [e, execPoll_done (s := s.reclock n b x) hp]
    exact .next h
  · rw [e, execPoll_idle_empty (s := s.reclock n b x) hp hl]
    exact .next h

theorem execConfig_alike {n b x : Word} {s : State} (h : SameButClock s (s.reclock n b x)) (baud : BitVec 24) :
    OutcomesAlike (execConfig baud s) (execConfig baud (s.reclock n b x)) := by
  have same_flight : (s.reclock n b x).inFlight = s.inFlight := rfl
  rw [execConfig, execConfig, same_flight]
  cases legalBaud baud with
  | false => exact .next h
  | true =>
    cases hf : s.inFlight with
    | false => exact .next (sameButClock_of_not_inFlight (s := configure baud s) hf n b x)
    | true => exact .next h

/-- R37: every command. -/
theorem exec_alike {s u : State} (h : SameButClock s u) (i : Instr) : OutcomesAlike (exec i s) (exec i u) := by
  obtain ⟨n, b, x, rfl⟩ : ∃ n b x, u = s.reclock n b x := ⟨_, _, _, h.eq_reclock⟩
  cases i with
  | request id len mode dir => exact exec_request_alike h id len mode dir
  | poll => exact execPoll_alike h
  | reset => exact .next (sameButClock_of_not_inFlight (s := afterReset s) rfl n 0 0)
  | config baud => exact execConfig_alike h baud
  | load id len mode dir => exact .next (sameButClock_loadTransaction h id len mode dir)
  | stepBreak => exact startBreak_alike n b x s
  | stepBody => exact stepBodyFn_alike h
  | stepRecv => exact stepRecvFn_alike h
  | nop | reserved9 | reservedA | reservedB | reservedC | reservedD | reservedE | reservedF => exact .next h

/-- Settles O42: what `OutcomesAlike` says of each of the three outcomes. -/
theorem onlyTimeDifferencesMatter : Obligations.OnlyTimeDifferencesMatter := by
  intro i s u h
  have alike := exec_alike h i
  refine ⟨fun t ht => ?_, fun r hr => ?_, fun r hr => ?_⟩
  · rw [ht] at alike
    generalize exec i u = o at alike
    cases alike with
    | next same => exact ⟨_, rfl, same⟩
  · rw [hr] at alike
    generalize exec i u = o at alike
    cases alike
    rfl
  · rw [hr] at alike
    generalize exec i u = o at alike
    cases alike
    rfl

end Sys2Proof.Machine
end

section
/-! The rules over all commands: which are refused, how STATE and ERR move, who writes each register and which transport
calls are made (R120, R61 to R67, R181 to R185). -/

namespace Sys2Proof.Machine

/-- R152: a REQUEST of a legal length. -/
theorem isRequest_eq_true {i : Instr} :
    i.isRequest = true ↔ ∃ id len mode dir, i = .request id len mode dir ∧ len.toNat ≤ 8 := by
  cases i with
  | request id len mode dir => simp [Instr.isRequest]
  | _ => simp [Instr.isRequest]

/-- R127: StartBreak is only refused for want of room for the break byte. -/
theorem startBreak_next {s : State} (h : ¬ (s.phase = .idle ∧ s.loaded = true ∧ s.txRoom = 0)) :
    ∃ t, startBreak s = .next t := by
  rcases startBreak_cases s with ⟨-, -, -, starts⟩ | ⟨hp, hl, hr, -⟩ | ⟨-, missed⟩
  · exact ⟨_, starts⟩
  · exact absurd ⟨hp, hl, hr⟩ h
  · exact ⟨_, missed⟩

/-- R129: StepBody is only refused for want of room for the post-break bytes. -/
theorem stepBodyFn_next {s : State}
    (h : ¬ (s.phase = .brk ∧ s.breakComplete = true ∧ s.txRoom < s.bodyBytes.length)) :
    ∃ t, stepBodyFn s = .next t := by
  rcases stepBodyFn_cases s with ⟨-, -, -, e⟩ | ⟨hp, hb, hr, -⟩ | ⟨-, -, -, e⟩ | ⟨-, -, -, e⟩ | ⟨-, e⟩
  · exact ⟨_, e⟩
  · exact absurd ⟨hp, hb, hr⟩ h
  · exact ⟨_, e⟩
  · exact ⟨_, e⟩
  · exact ⟨_, e⟩

/-- R133: StepRecv sends nothing. -/
theorem stepRecvFn_next (s : State) : ∃ t, stepRecvFn s = .next t := by
  rcases stepRecvFn_cases s with ⟨-, -, e⟩ | ⟨-, -, -, e⟩ | ⟨-, -, -, e⟩ | ⟨-, e⟩ <;> exact ⟨_, e⟩

/-- R61, U2: a TxWrite that does not fit refuses the command. -/
theorem exec_refused_of_overfills {i : Instr} {s : State} (h : overfillsTransport i s) :
    exec i s = .refused .transportFull := by
  rcases h with ⟨starts, hr⟩ | ⟨hreq, hf, hr⟩ | ⟨hi, hp, hb, hr⟩
  · exact (exec_startsBreak starts).trans (startBreak_full starts.2.1 starts.2.2 hr)
  · obtain ⟨id, len, mode, dir, rfl, hl⟩ := isRequest_eq_true.mp hreq
    exact (exec_request_accepted hl hf).trans (startBreak_full rfl rfl hr)
  · exact (exec_stepsBody hi hp).trans (stepBodyFn_full hp hb hr)

/-- R61, U2: every other command answers a next state. -/
theorem exec_next_of_fits {i : Instr} {s : State} (h : ¬ overfillsTransport i s) : ∃ t, exec i s = .next t := by
  obtain ⟨noBreak, noRequest, noBody⟩ : ¬ (startsBreak i s ∧ s.txRoom = 0) ∧
      ¬ (i.isRequest = true ∧ s.inFlight = false ∧ s.txRoom = 0) ∧
      ¬ (i.stepsBody ∧ s.phase = .brk ∧ s.breakComplete = true ∧ s.txRoom < s.bodyBytes.length) := by
    simpa only [not_or] using h
  cases i with
  | request id len mode dir =>
    change ∃ t, execRequest id len mode dir s = .next t
    rcases execRequest_cases id len mode dir s with ⟨-, e⟩ | ⟨-, -, e⟩ | ⟨hl, hf, e⟩
    · exact ⟨_, e⟩
    · exact ⟨_, e⟩
    · rw [e]
      exact startBreak_next fun ⟨_, _, hr⟩ => noRequest ⟨(legalLen_eq_true len).mpr hl, hf, hr⟩
  | poll =>
    change ∃ t, execPoll s = .next t
    rcases execPoll_cases s with ⟨hp, hl, e⟩ | ⟨hp, e⟩ | ⟨hp, e⟩ | ⟨-, e⟩ <;> rw [e]
    · exact startBreak_next fun ⟨_, _, hr⟩ => noBreak ⟨⟨.inr rfl, hp, hl⟩, hr⟩
    · exact stepBodyFn_next fun full => noBody ⟨.inr rfl, full⟩
    · exact stepRecvFn_next s
    · exact ⟨s, rfl⟩
  | config baud =>
    change ∃ t, execConfig baud s = .next t
    rcases execConfig_cases baud s with ⟨-, -, e⟩ | ⟨-, e⟩ <;> exact ⟨_, e⟩
  | stepBreak => exact startBreak_next fun ⟨hp, hl, hr⟩ => noBreak ⟨⟨.inl rfl, hp, hl⟩, hr⟩
  | stepBody => exact stepBodyFn_next fun full => noBody ⟨.inl rfl, full⟩
  | stepRecv => exact stepRecvFn_next s
  | nop | reset | load | reserved9 | reservedA | reservedB | reservedC | reservedD | reservedE | reservedF =>
    exact ⟨_, rfl⟩

/-- Settles O26: the two directions, command by command. -/
theorem onlyAFullTransportIsRefused : Obligations.OnlyAFullTransportIsRefused := fun _ _ =>
  ⟨exec_refused_of_overfills, exec_next_of_fits⟩

/-- `exec_cases` in the terms of the claims: what a command that answers a next state finds, and what it leaves. -/
inductive Effect (i : Instr) (s : State) : State → Prop
  | none : Effect i s s
  | reset (hi : i = .reset) : Effect i s (afterReset s)
  | config (b : BitVec 24) (hi : i = .config b) (hf : s.inFlight = false) : Effect i s (configure b s)
  | rejected (id : BitVec 6) (len : BitVec 4) (mode : ChecksumMode) (dir : Direction)
      (hi : i = .load id len mode dir ∨ i = .request id len mode dir) : Effect i s { s with accept := false }
  | busy (id : BitVec 6) (len : BitVec 4) (mode : ChecksumMode) (dir : Direction)
      (hi : i = .load id len mode dir ∨ i = .request id len mode dir) (hm : isMisuse i s) :
      Effect i s (misuse { s with accept := false })
  | latched (id : BitVec 6) (len : BitVec 4) (mode : ChecksumMode) (dir : Direction)
      (hi : i = .load id len mode dir) (hload : i.isLoad = true) (hf : s.inFlight = false) :
      Effect i s (latch id len mode dir s)
  | requested (id : BitVec 6) (len : BitVec 4) (mode : ChecksumMode) (dir : Direction)
      (hi : i = .request id len mode dir) (hrequest : i.isRequest = true) (hf : s.inFlight = false) :
      Effect i s (afterStartBreak (latch id len mode dir s))
  | breakStarted (starts : startsBreak i s) : Effect i s (afterStartBreak s)
  | misused (hm : isMisuse i s) : Effect i s (misuse s)
  | bodySent (hi : i.stepsBody) (hp : s.phase = .brk) (hb : s.breakComplete = true) : Effect i s (afterStepBody s)
  | timedOutInBreak (hi : i.stepsBody) (hp : s.phase = .brk) (hb : s.breakComplete = false)
      (ht : s.timedOut = true) : Effect i s (errorToDone errorTimeout s)
  | received (enough : receives i s) : Effect i s (afterStepRecv s)
  | timedOutInBody (hi : i.stepsRecv) (hp : s.phase = .body) (hn : s.rx.length < s.frame.rxlen.toNat)
      (ht : s.timedOut = true) : Effect i s (errorToDone errorTimeout (rxAvail s))
  | awaited (hi : i.stepsRecv) (hp : s.phase = .body) (hn : s.rx.length < s.frame.rxlen.toNat) :
      Effect i s (rxAvail s)

theorem exec_effect {i : Instr} {s t : State} (h : exec i s = .next t) : Effect i s t := by
  rcases exec_cases h with rfl | ⟨hi, rfl⟩ | ⟨b, hi, -, hf, rfl⟩ |
    ⟨id, len, mode, dir, hi, ⟨-, rfl⟩ | ⟨hl, hf, rfl⟩⟩ | ⟨id, len, mode, dir, hi, hl, hf, rfl⟩ |
    ⟨id, len, mode, dir, hi, hl, hf, -, rfl⟩ | ⟨hi, hp, hl, -, rfl⟩ | ⟨hi, rfl⟩ |
    ⟨hi, hp, ⟨hb, -, rfl⟩ | ⟨hb, ht, rfl⟩⟩ | ⟨hi, hp, ⟨hn, rfl⟩ | ⟨hn, ht, rfl⟩ | ⟨hn, -, rfl⟩⟩
  · exact .none
  · exact .reset hi
  · exact .config b hi hf
  · exact .rejected id len mode dir hi
  · have legal := (legalLen_eq_true len).mpr hl
    have loads : i.isLoad = true ∨ i.isRequest = true :=
      hi.imp (by rintro rfl; exact legal) (by rintro rfl; exact legal)
    exact .busy id len mode dir hi (.inr (.inr (.inr ⟨loads, (inFlight_eq_true s).mp hf⟩)))
  · exact .latched id len mode dir hi (hi ▸ (legalLen_eq_true len).mpr hl) hf
  · exact .requested id len mode dir hi (hi ▸ (legalLen_eq_true len).mpr hl) hf
  · exact .breakStarted ⟨hi, hp, hl⟩
  · rcases hi with ⟨hi, h⟩ | h | h
    · rw [Decidable.not_and_iff_or_not, Bool.not_eq_true] at h
      exact .misused (.inl ⟨hi, h⟩)
    · exact .misused (.inr (.inl h))
    · exact .misused (.inr (.inr (.inl h)))
  · exact .bodySent hi hp hb
  · exact .timedOutInBreak hi hp hb ht
  · exact .received ⟨hi, hp, hn⟩
  · exact .timedOutInBody hi hp hn ht
  · exact .awaited hi hp hn

@[simp] theorem afterReset_phase (s : State) : (afterReset s).phase = .idle := rfl
@[simp] theorem afterStartBreak_phase (s : State) : (afterStartBreak s).phase = .brk := rfl
@[simp] theorem afterStepBody_phase (s : State) : (afterStepBody s).phase = .body := rfl
@[simp] theorem afterStepRecv_phase (s : State) : (afterStepRecv s).phase = .done := rfl

/-- R120: staying in a state is no move. -/
theorem listedMove_self (i : Instr) (s : State) : listedMove i s s.phase := by
  cases hp : s.phase <;> simp [listedMove, hp]

/-- R120, R128: every misuse is a listed move to DONE. -/
theorem listedMove_of_isMisuse {i : Instr} {s : State} (h : isMisuse i s) : listedMove i s .done := by
  rcases h with ⟨rfl, hm⟩ | ⟨rfl, hm⟩ | ⟨rfl, hm⟩ | ⟨hi, hm⟩
  · cases hp : s.phase <;> simp_all [listedMove]
  · cases hp : s.phase <;> simp_all [listedMove]
  · cases hp : s.phase <;> simp_all [listedMove]
  · rcases hm with hp | hp <;> rcases hi with hi | hi <;> simp [listedMove, hp, hi]

/-- Settles O27: each effect's new STATE is a row of the list. -/
theorem onlyTheListedMoves : Obligations.OnlyTheListedMoves := by
  intro i s t h
  cases exec_effect h with
  | none => exact listedMove_self i s
  | reset hi => cases hp : s.phase <;> simp [listedMove, hp, hi]
  | config => exact listedMove_self i s
  | rejected => exact listedMove_self i s
  | busy _ _ _ _ _ hm => exact listedMove_of_isMisuse hm
  | latched _ _ _ _ _ hload hf =>
    rcases (inFlight_eq_false s).mp hf with hp | hp <;> simp [listedMove, hp, hload]
  | requested _ _ _ _ _ hrequest hf =>
    rcases (inFlight_eq_false s).mp hf with hp | hp <;> simp [listedMove, hp, hrequest]
  | breakStarted starts =>
    obtain ⟨hi, hp, hl⟩ := starts
    simp [listedMove, hp, hi, hl]
  | misused hm => exact listedMove_of_isMisuse hm
  | bodySent hi hp hb => simp [listedMove, hp, hi, hb]
  | timedOutInBreak hi hp hb ht => simp [listedMove, hp, hi, hb, ht]
  | received enough =>
    obtain ⟨hi, hp, hn⟩ := enough
    simp [listedMove, hp, hi, hn]
  | timedOutInBody hi hp hn ht => simp [listedMove, hp, hi, ht]
  | awaited => exact listedMove_self i s

/-- R110: validation raises nothing, one of its two flags, or both. -/
theorem validateResponse_values (p : Params) (f : Frame) (t r : Vector Byte 12) :
    validateResponse p f t r ∈ [0x0#4, 0x4, 0x8, 0xC] := by
  rw [validateResponse]
  cases echoMismatch p t r <;> cases checksumMismatch f r <;> decide

/-- Settles O29: misuse adds ERROR_STATE by `exec_misuse_err`; each effect that is no misuse adds its own flags, and of
them only a reception's, which are validation's, are neither 0 nor ERROR_TIMEOUT. -/
theorem errorCausesExcludeEachOther : Obligations.ErrorCausesExcludeEachOther := by
  intro i s t h hc
  by_cases hm : isMisuse i s
  · exact ⟨0x1, exec_misuse_err h hm, by simp [hm], .inr (.inl rfl)⟩
  have other {f : BitVec 4} (hf : f ≠ 0x1) : f = 0x1 ↔ isMisuse i s := iff_of_false hf hm
  have nothing {u : State} (hu : u.err = s.err) : u.err = s.err ||| 0 := hu.trans (BitVec.or_zero).symm
  cases exec_effect h with
  | none => exact ⟨0, nothing rfl, other (by decide), .inl rfl⟩
  | reset hi => exact absurd (.inl hi) hc
  | config => exact ⟨0, nothing rfl, other (by decide), .inl rfl⟩
  | rejected => exact ⟨0, nothing rfl, other (by decide), .inl rfl⟩
  | busy _ _ _ _ _ hm' => exact absurd hm' hm
  | latched _ _ _ _ _ hload hf => exact absurd (.inr ⟨.inl hload, hf⟩) hc
  | requested _ _ _ _ _ hrequest hf => exact absurd (.inr ⟨.inr hrequest, hf⟩) hc
  | breakStarted => exact ⟨0, nothing rfl, other (by decide), .inl rfl⟩
  | misused hm' => exact absurd hm' hm
  | bodySent => exact ⟨0, nothing rfl, other (by decide), .inl rfl⟩
  | timedOutInBreak hi hp hb ht =>
    exact ⟨0x2, rfl, other (by decide), .inr (.inr (.inl ⟨rfl, ht, .inl ⟨hp, hi, hb⟩⟩))⟩
  | received enough =>
    have values := validateResponse_values s.params s.frame s.txframe (receivedBuffer s)
    refine ⟨validateResponse s.params s.frame s.txframe (receivedBuffer s), rfl, other fun h1 => ?_, ?_⟩
    · rw [h1] at values
      exact absurd values (by decide)
    · rcases List.mem_cons.mp values with h0 | flags
      · exact .inl h0
      · exact .inr (.inr (.inr ⟨by simpa using flags, enough, rfl, rfl⟩))
  | timedOutInBody hi hp hn ht =>
    exact ⟨0x2, rfl, other (by decide), .inr (.inr (.inl ⟨rfl, ht, .inr ⟨hp, hi, hn⟩⟩))⟩
  | awaited => exact ⟨0, nothing rfl, other (by decide), .inl rfl⟩

/-- R156, R154, R182: a command that clears ERR leaves it 0. -/
theorem err_eq_zero_of_clearsErr {i : Instr} {s t : State} (h : exec i s = .next t) (hc : clearsErr i s) :
    t.err = 0 := by
  rcases hc with rfl | ⟨hi, hf⟩
  · rw [← Host.Outcome.next.inj h]
    rfl
  · cases i <;> simp only [Instr.isLoad, Instr.isRequest, Bool.false_eq_true, or_self, or_false, false_or,
      legalLen_eq_true] at hi
    case load id len mode dir =>
      rw [← Host.Outcome.next.inj ((exec_load_accepted hi hf).symm.trans h)]
      rfl
    case request id len mode dir =>
      rw [exec_request_accepted hi hf] at h
      rcases startBreak_cases (latch id len mode dir s) with ⟨-, -, -, starts⟩ | ⟨-, -, -, full⟩ | ⟨hne, -⟩
      · rw [← Host.Outcome.next.inj (starts.symm.trans h)]
        rfl
      · cases full.symm.trans h
      · exact absurd ⟨rfl, rfl⟩ hne

/-- Settles O28: what does not clear ERR ORs into it, by O29, and an effect that changes it is a misuse, a timeout or a
reception. -/
theorem errorFlagsAccumulate : Obligations.ErrorFlagsAccumulate := by
  intro i s t h
  refine ⟨err_eq_zero_of_clearsErr h, fun hc => ?_, fun hc changed => ?_⟩
  · obtain ⟨f, herr, -⟩ := errorCausesExcludeEachOther i s t h hc
    rw [herr]
    refine BitVec.eq_of_getLsbD_eq fun k _ => ?_
    rw [BitVec.getLsbD_and, BitVec.getLsbD_or]
    cases s.err.getLsbD k <;> rfl
  · cases exec_effect h with
    | reset hi => exact absurd (.inl hi) hc
    | latched _ _ _ _ _ hload hf => exact absurd (.inr ⟨.inl hload, hf⟩) hc
    | requested _ _ _ _ _ hrequest hf => exact absurd (.inr ⟨.inr hrequest, hf⟩) hc
    | none | config | rejected | breakStarted | bodySent | awaited => exact absurd rfl changed
    | busy | misused | timedOutInBreak | received | timedOutInBody => rfl

/-- R35, R38, R68: no command touches TXDATA, the parameters, the accesses to come, the clock or what was read. -/
theorem Effect.keeps_inputs {i : Instr} {s t : State} (h : Effect i s t) :
    t.txdata = s.txdata ∧ t.params = s.params ∧ t.pending = s.pending ∧ t.now = s.now ∧ t.reads = s.reads := by
  cases h <;> exact ⟨rfl, rfl, rfl, rfl, rfl⟩

/-- R29 to R31: only CONFIG writes BAUD and its durations. -/
theorem Effect.keeps_rate {i : Instr} {s t : State} (h : Effect i s t) (hi : ∀ b, i ≠ .config b) :
    t.baud = s.baud ∧ t.tbyte = s.tbyte ∧ t.tbrk = s.tbrk := by
  cases h with
  | config b hb => exact absurd hb (hi b)
  | _ => exact ⟨rfl, rfl, rfl⟩

/-- R25: only LOAD, REQUEST and RESET write ACCEPT. -/
theorem Effect.keeps_accept {i : Instr} {s t : State} (h : Effect i s t) (hr : i ≠ .reset)
    (hl : ∀ id len m d, i ≠ .load id len m d) (hq : ∀ id len m d, i ≠ .request id len m d) :
    t.accept = s.accept := by
  cases h with
  | reset hi => exact absurd hi hr
  | rejected id len mode dir hi => exact (hi.elim (hl id len mode dir) (hq id len mode dir)).elim
  | busy id len mode dir hi => exact (hi.elim (hl id len mode dir) (hq id len mode dir)).elim
  | latched id len mode dir hi => exact absurd hi (hl id len mode dir)
  | requested id len mode dir hi => exact absurd hi (hq id len mode dir)
  | _ => rfl

/-- R24, R32 to R34, R36, R39, R40: the writers of a transaction's registers, but for the commands that clear it. -/
theorem Effect.keeps_transaction {i : Instr} {s t : State} (h : Effect i s t) (hc : ¬ clearsErr i s) :
    t.frame = s.frame ∧ t.txframe = s.txframe ∧
      (¬ startsBreak i s → t.tto = s.tto ∧ t.tstartBrk = s.tstartBrk ∧ t.tstartTx = s.tstartTx) ∧
      (¬ receives i s → t.rxbuf = s.rxbuf ∧ t.rxdone = s.rxdone) ∧
      (t.loaded ≠ s.loaded → t.loaded = false ∧ (startsBreak i s ∨ isMisuse i s)) := by
  cases h with
  | reset hi => exact absurd (.inl hi) hc
  | latched _ _ _ _ _ hload hf => exact absurd (.inr ⟨.inl hload, hf⟩) hc
  | requested _ _ _ _ _ hrequest hf => exact absurd (.inr ⟨.inr hrequest, hf⟩) hc
  | busy _ _ _ _ _ hm | misused hm =>
    exact ⟨rfl, rfl, fun _ => ⟨rfl, rfl, rfl⟩, fun _ => ⟨rfl, rfl⟩, fun _ => ⟨rfl, .inr hm⟩⟩
  | breakStarted starts =>
    exact ⟨rfl, rfl, fun h => absurd starts h, fun _ => ⟨rfl, rfl⟩, fun _ => ⟨rfl, .inl starts⟩⟩
  | received enough =>
    exact ⟨rfl, rfl, fun _ => ⟨rfl, rfl, rfl⟩, fun h => absurd enough h, fun h => absurd rfl h⟩
  | none | config | rejected | bodySent | timedOutInBreak | timedOutInBody | awaited =>
    exact ⟨rfl, rfl, fun _ => ⟨rfl, rfl, rfl⟩, fun _ => ⟨rfl, rfl⟩, fun h => absurd rfl h⟩

/-- Settles O30: each clause is one of the lemmas above. -/
theorem eachRegisterHasItsWriters : Obligations.EachRegisterHasItsWriters := by
  intro i s t h
  have effect := exec_effect h
  obtain ⟨htxdata, hparams, hpending, hnow, hreads⟩ := effect.keeps_inputs
  exact ⟨htxdata, hparams, hpending, hnow, hreads, effect.keeps_rate, effect.keeps_accept, effect.keeps_transaction⟩

/-- R39, R126: the first byte of a latched buffer is the break placeholder. -/
theorem byteAt_latch_zero (id : BitVec 6) (len : BitVec 4) (mode : ChecksumMode) (dir : Direction) (s : State) :
    byteAt (latch id len mode dir s).txframe 0 = 0x00 :=
  (byteAt_padTo_of_lt _ (by decide)).trans (getD_outgoingBytes_header id _ mode dir (by decide))

/-- Settles O31: each effect's record of calls. -/
theorem transportCallsOfOneCommand : Obligations.TransportCallsOfOneCommand := by
  intro i s t h
  have silent : s.calls = s.calls ++ [] := (List.append_nil s.calls).symm
  cases exec_effect h with
  | none | reset | config | rejected | busy | latched | misused | timedOutInBreak => exact ⟨[], silent, .inl rfl⟩
  | requested _ _ _ _ _ _ hf =>
    have hp : s.phase ≠ .brk := by
      rcases (inFlight_eq_false s).mp hf with hp | hp <;> simp [hp]
    exact ⟨_, rfl, .inr (.inl ⟨rfl, hp, rfl⟩)⟩
  | breakStarted starts => exact ⟨_, rfl, .inr (.inl ⟨rfl, by simp [starts.2.1], rfl⟩)⟩
  | bodySent _ hp _ => exact ⟨_, rfl, .inr (.inr (.inl ⟨rfl, hp, rfl⟩))⟩
  | received enough =>
    obtain ⟨-, hp, hn⟩ := enough
    refine ⟨_, rfl, .inr (.inr (.inr (.inr ⟨hp, rfl, rfl, s.rx.take s.frame.rxlen.toNat, ?_⟩)))⟩
    have count := List.length_take_of_le hn
    exact ⟨count, count.trans_le hn, (List.take_append_drop _ _).symm, rfl⟩
  | timedOutInBody _ hp | awaited _ hp => exact ⟨_, rfl, .inr (.inr (.inr (.inl ⟨hp, rfl, rfl⟩)))⟩

/-- R41: outside BREAK and BODY the transport's rate is free. -/
theorem rateInv_of_not_inFlight {t : State} (hf : t.inFlight = false) : t.RateInv := by
  rcases (inFlight_eq_false t).mp hf with hp | hp <;> simp [State.RateInv, hp]

/-- R41, R65: the last `SetBaud` is the break's. -/
theorem rateInv_afterStartBreak (s : State) : (afterStartBreak s).RateInv :=
  ⟨fun _ => by simp [afterStartBreak, rateAfter], nofun⟩

/-- R41, R65: the last `SetBaud` is the body's. -/
theorem rateInv_afterStepBody (s : State) : (afterStepBody s).RateInv :=
  ⟨nofun, fun _ => by simp [afterStepBody, rateAfter]⟩

/-- R62, R65: asking for the count of bytes sets no rate. -/
theorem rateInv_rxAvail {s : State} (h : s.RateInv) : (rxAvail s).RateInv := by
  have same_rate : rateAfter (rxAvail s).calls = rateAfter s.calls := by simp [rateAfter]
  rw [State.RateInv, same_rate]
  exact h

theorem exec_keeps_rateInv {i : Instr} {s t : State} (h : s.RateInv) (ht : exec i s = .next t) : t.RateInv := by
  cases exec_effect ht with
  | none | rejected => exact h
  | config b _ hf => exact rateInv_of_not_inFlight (t := configure b s) hf
  | breakStarted | requested => exact rateInv_afterStartBreak _
  | bodySent => exact rateInv_afterStepBody s
  | awaited => exact rateInv_rxAvail h
  | reset | latched | busy | misused | timedOutInBreak | received | timedOutInBody =>
    exact rateInv_of_not_inFlight rfl

/-- Settles O32: only commands change STATE, BAUD or the calls, and each of their effects keeps the rate. -/
theorem transportRateFollowsTheState : Obligations.TransportRateFollowsTheState := by
  refine ⟨rateInv_of_not_inFlight rfl, fun s t h ht => ?_⟩
  rcases step_cases ht with ⟨-, rfl⟩ | ⟨e, rest, -, rfl | ⟨v, rfl⟩ | ⟨d, rfl⟩ | ⟨w, hw⟩⟩
  · exact h
  · exact rateInv_of_not_inFlight rfl
  · exact h
  · exact h
  · exact exec_keeps_rateInv (s := arrive e rest s) h hw

/-- Settles O19: REQUEST is StartBreak of the latched transaction, whose first byte is the break placeholder. -/
theorem requestLatchesAndStartsTheBreak : Obligations.RequestLatchesAndStartsTheBreak := by
  intro id len mode dir s hlen hphase hroom
  have hf := (inFlight_eq_false s).mpr hphase
  refine ⟨afterStartBreak (latch id len mode dir s), latch id len mode dir s, exec_load_accepted hlen hf,
    (exec_request_accepted hlen hf).trans (startBreak_starts rfl rfl hroom), ?_, ttoOf_toNat _ _ _⟩
  rw [afterStartBreak, byteAt_latch_zero]
  rfl

/-- R184: what a latch leaves of the state it finds is what no transaction writes. -/
theorem latch_eq_of_sameConfiguration {s u : State} (h : SameConfiguration s u) (id : BitVec 6) (len : BitVec 4)
    (mode : ChecksumMode) (dir : Direction) : latch id len mode dir s = latch id len mode dir u := by
  obtain ⟨hbaud, htbyte, htbrk, htxdata, hparams, hnow, hrx, hroom, hpending, hcalls, hreads⟩ := h
  simp only [latch, clearTransaction, State.payload, hbaud, htbyte, htbrk, htxdata, hparams, hnow, hrx, hroom, hpending,
    hcalls, hreads]

/-- Settles O44: LOAD is the latch, and REQUEST is StartBreak of the latched state. -/
theorem nextTransactionIsIndependent : Obligations.NextTransactionIsIndependent := by
  intro id len mode dir s u hlen hs hu same
  have latches := latch_eq_of_sameConfiguration same id len mode dir
  rw [exec_load_accepted hlen hs, exec_load_accepted hlen hu, exec_request_accepted hlen hs,
    exec_request_accepted hlen hu, latches]
  exact ⟨rfl, rfl⟩

end Sys2Proof.Machine
end

section
/-! What the registers read, field by field, and what the accesses to them do (R27 to R40, R50 to R57, R95). -/

namespace Sys2Proof.Machine

/-- R23: the encoding of STATE, written out. -/
theorem toBits_eq (p : Phase) :
    p.toBits = match p with | .idle => 0#2 | .brk => 1#2 | .body => 2#2 | .done => 3#2 := by
  cases p <;> rfl

/-- R27, R35: a flag is one bit of its register. -/
theorem getLsbD_zero_ofBool (b : Bool) : (BitVec.ofBool b).getLsbD 0 = b := by
  cases b <;> rfl

/-- R36: MODE's bit. -/
theorem getLsbD_zero_modeBit (m : ChecksumMode) : (modeBit m).getLsbD 0 = decide (m = .enhanced) := by
  cases m <;> rfl

/-- R36: DIR's bit. -/
theorem getLsbD_zero_dirBit (d : Direction) : (dirBit d).getLsbD 0 = decide (d = .read) := by
  cases d <;> rfl

/-- R35: WRITE_ECHO_SCOPE's bit. -/
theorem getLsbD_zero_scopeBit (e : EchoScope) : (scopeBit e).getLsbD 0 = decide (e = .header) := by
  cases e <;> rfl

/-- Settles O9: STATUS is its fields side by side, and the lemmas on `++` drop the fields below and above each. -/
theorem statusFields : Obligations.StatusFields := by
  intro s
  simp (disch := decide) only [State.readReg, State.status, State.valid, BitVec.extractLsb'_append_eq_of_le,
    BitVec.extractLsb'_append_eq_of_add_le, BitVec.getLsbD_append]
  exact ⟨BitVec.extractLsb'_eq_self.trans (toBits_eq s.phase), getLsbD_zero_ofBool _, getLsbD_zero_ofBool _,
    BitVec.extractLsb'_eq_self, getLsbD_zero_ofBool _, getLsbD_zero_ofBool _, BitVec.extractLsb'_eq_self⟩

/-- Settles O10: the same for FRAME and PARAMS. -/
theorem frameAndParamsFields : Obligations.FrameAndParamsFields := by
  intro s
  simp (disch := decide) only [State.readReg, Frame.toWord, paramsWord, BitVec.extractLsb'_append_eq_of_le,
    BitVec.extractLsb'_append_eq_of_add_le, BitVec.getLsbD_append]
  exact ⟨BitVec.extractLsb'_eq_self, BitVec.extractLsb'_eq_self, getLsbD_zero_modeBit _, getLsbD_zero_dirBit _,
    BitVec.extractLsb'_eq_self, BitVec.extractLsb'_eq_self, BitVec.extractLsb'_eq_self, BitVec.extractLsb'_eq_self,
    BitVec.extractLsb'_eq_self, BitVec.extractLsb'_eq_self, by decide, getLsbD_zero_scopeBit _, getLsbD_zero_ofBool _,
    BitVec.extractLsb'_eq_self, by decide, BitVec.extractLsb'_eq_self⟩

/-- Settles O50: BAUD has eight zeros above it, and the buffers' words are their bytes by `bufferWord_byte`. -/
theorem otherRegistersReadTheirFields : Obligations.OtherRegistersReadTheirFields := by
  intro s
  refine ⟨BitVec.extractLsb'_append_eq_right, BitVec.extractLsb'_append_eq_left, rfl, rfl, rfl, rfl, rfl, rfl,
    fun j k => ?_, fun j k => ?_, fun j k => ?_⟩
  · match j with
    | 0 | 1 => exact bufferWord_byte s.txdata _ k.isLt
  · match j with
    | 0 | 1 | 2 => exact bufferWord_byte s.txframe _ k.isLt
  · match j with
    | 0 | 1 | 2 => exact bufferWord_byte s.rxbuf _ k.isLt

/-- Settles O12: a closed state, register by register. -/
theorem resetRegistersReadTheDefaults : Obligations.ResetRegistersReadTheDefaults := by
  intro r
  cases r <;> decide

/-- Settles O4: `arrive` is the state the statement writes out. -/
theorem stepRunsTheDecodedCommand : Obligations.StepRunsTheDecodedCommand := by
  refine ⟨fun s e rest w hp ha => step_command hp ha, fun s hp => ?_⟩
  rw [step, hp]

/-- R50, R57: in the register space, an access that is narrow or misaligned is refused. -/
theorem atOffset_unsupported (s : State) {off width : Nat} (hoff : off < 256) (h : width ≠ 4 ∨ off % 4 ≠ 0)
    (f : Nat → Host.Outcome State Fault Refusal) :
    atOffset (s.params.base + off) width s f = .refused .unsupportedAccess := by
  have inside : offsetOf s.params.base (s.params.base + off) = some off := by simp [offsetOf, blockBytes, hoff]
  have unsupported : supported off width = false := by
    rw [supported, Bool.and_eq_false_iff, decide_eq_false_iff_not, decide_eq_false_iff_not]
    exact h
  simp [atOffset, inside, unsupported]

/-- R50: an access outside the register space faults. -/
theorem atOffset_outside (s : State) {addr : Nat} (h : addr < s.params.base ∨ s.params.base + 256 ≤ addr) (width : Nat)
    (f : Nat → Host.Outcome State Fault Refusal) : atOffset addr width s f = .fault .noSuchRegister := by
  have outside : offsetOf s.params.base addr = none := by
    rw [offsetOf, if_neg]
    rw [blockBytes]
    omega
  simp [atOffset, outside]

/-- Settles O8: reads and writes go through `atOffset` alike. -/
theorem otherAccessesStop : Obligations.OtherAccessesStop := by
  refine ⟨fun s e rest off width w hp hoff h ha => ?_, fun s e rest addr width w hp h ha => ?_⟩
  · rcases ha with ha | ha <;> simp only [step, hp, ha, perform]
    · exact atOffset_unsupported (arrive e rest s) hoff h _
    · exact atOffset_unsupported (arrive e rest s) hoff h _
  · rcases ha with ha | ha <;> simp only [step, hp, ha, perform]
    · exact atOffset_outside (arrive e rest s) h width _
    · exact atOffset_outside (arrive e rest s) h width _

/-- R56: a word of a buffer reads what was written to it. -/
theorem bufferWord_storeBufferWord {n : Nat} (v : Vector Byte n) {k : Nat} (w : Word) (hk : 4 * k + 4 ≤ n) :
    bufferWord (storeBufferWord v k w) k = w := by
  have byte {i : Nat} (hi : i < 4) : byteAt (storeBufferWord v k w) (4 * k + i) = w.extractLsb' (8 * i) 8 := by
    rw [byteAt_storeBufferWord v w hk (by omega), if_pos (by omega), show (4 * k + i) % 4 = i by omega]
  rw [bufferWord, byte (i := 3) (by decide), byte (i := 2) (by decide), byte (i := 1) (by decide)]
  rw [← Nat.add_zero (4 * k), byte (i := 0) (by decide)]
  exact wordOfBytes_extract w

/-- R52: TXDATA0 and TXDATA1 are the two words of TXDATA. -/
theorem readOffset_txdata (s : State) (j : Fin 2) : s.readOffset (0x20 + 4 * j.val) = bufferWord s.txdata j.val := by
  match j with
  | 0 => exact readOffset_offset s .txdata0
  | 1 => exact readOffset_offset s .txdata1

/-- Settles O7: the step stores the word, whose bytes are those of the buffer it leaves. -/
theorem txdataWritesStoreFourBytes : Obligations.TxdataWritesStoreFourBytes := by
  intro s e rest j w hp ha
  have hj : 4 * j.val + 4 ≤ 8 := by omega
  refine ⟨_, step_store hp ha, rfl, fun k => byteAt_storeBufferWord s.txdata w hj k.isLt, ?_⟩
  rw [readOffset_txdata]
  exact bufferWord_storeBufferWord s.txdata w hj

/-- R95: two words written one after the other are the buffer they are taken from. -/
theorem storeBufferWord_both (v bytes : Vector Byte 8) :
    storeBufferWord (storeBufferWord v 0 (bufferWord bytes 0)) 1 (bufferWord bytes 1) = bytes := by
  apply buffer_ext
  intro k hk
  rw [byteAt_storeBufferWord _ _ (by decide) hk, byteAt_storeBufferWord _ _ (by decide) hk,
    bufferWord_byte bytes 1 (by omega), bufferWord_byte bytes 0 (by omega)]
  rcases (by omega : k / 4 = 0 ∨ k / 4 = 1) with h | h
  · rw [if_neg (by omega), if_pos h, show 4 * 0 + k % 4 = k by omega]
  · rw [if_pos h, show 4 * 1 + k % 4 = k by omega]

/-- Settles O47: two stores, of the two words of the eight bytes. -/
theorem setDataFillsTxdata : Obligations.SetDataFillsTxdata := by
  intro s bytes e1 e2 rest hp ha
  obtain ⟨ha1, ha2⟩ : e1.access = .write (s.params.base + 0x20) 4 (bufferWord bytes 0) ∧
      e2.access = .write (s.params.base + 0x24) 4 (bufferWord bytes 1) := by
    simpa [setDataAccesses, wrAt, Reg.offset] using ha
  have first := step_store (j := 0) hp ha1
  have second := step_store (j := 1) (rest := rest) rfl
    (s := { arrive e1 (e2 :: rest) s with txdata := storeBufferWord s.txdata 0 (bufferWord bytes 0) }) ha2
  have both := storeBufferWord_both s.txdata bytes
  rw [run_two first second]
  simp only [Fin.val_one, both]
  rfl

end Sys2Proof.Machine
end

section
/-! Durations: the deadline is not before the break's threshold (R132), the threshold is at the end of the break byte
(R130), and the break byte on the wire (R92, R93). -/

namespace Sys2Proof.Machine

/-- R121 to R123, R132: with a legal rate, `BREAK_MULT ≤ TIMEOUT_MULT * (LEN + 5)` puts TBRK within TTO; neither is cut
off by TTO's saturation. -/
theorem tbrk_le_tto {s : State} (timing : s.TimingInv)
    (mult : s.params.breakMult.toNat ≤ s.params.timeoutMult.toNat * (s.frame.len.toNat + 5)) :
    s.tbrk.toNat ≤ (ttoOf s.params s.frame.len s.tbyte).toNat := by
  obtain ⟨-, hbaud, htbyte, htbrk⟩ := timing
  obtain ⟨value, bound⟩ := tbyteOf_toNat ((legalBaud_eq_true _).mp hbaud).1
  have small : s.tbyte.toNat ≤ 5000000 := by
    rw [htbyte, value]
    exact bound
  have eight_bits := s.params.breakMult.isLt
  rw [htbrk, tbrkOf_toNat s.params small, ttoOf_toNat]
  refine le_min (Nat.mul_le_mul_right _ mult) ?_
  calc s.params.breakMult.toNat * s.tbyte.toNat ≤ 255 * 5000000 := Nat.mul_le_mul (by omega) small
    _ ≤ 2 ^ 31 - 1 := by decide

/-- R132: then whoever is past the deadline in BREAK is past the threshold. -/
theorem breakComplete_of_timedOut {s : State} (h : s.Inv) (hp : s.phase = .brk)
    (mult : s.params.breakMult.toNat ≤ s.params.timeoutMult.toNat * (s.frame.len.toNat + 5))
    (late : s.timedOut = true) : s.breakComplete = true := by
  have within := tbrk_le_tto (timing_of_inv h) mult
  obtain ⟨-, -, ⟨deadline, -⟩, -⟩ := h
  obtain ⟨one_start, htto⟩ := deadline ((inFlight_eq_true s).mpr (.inl hp))
  rw [timedOut_iff, one_start, htto] at late
  exact (breakComplete_iff s).mpr (within.trans_lt late)

/-- Settles O41: ERR is 0 in BREAK, and of the flags a command can add (O29) ERROR_TIMEOUT would need the deadline to
have passed before the threshold. -/
theorem noTimeoutInBreakByDefault : Obligations.NoTimeoutInBreakByDefault := by
  intro i s t h hp mult ht
  have herr : s.err = 0 := by
    obtain ⟨-, -, -, err, -⟩ := h
    exact err (by simp [hp])
  have flags_of_t : s.err ||| t.err = t.err := herr ▸ BitVec.zero_or
  rw [flags_of_t]
  by_cases hc : clearsErr i s
  · rw [err_eq_zero_of_clearsErr ht hc]
    rfl
  · obtain ⟨f, hf, -, causes⟩ := errorCausesExcludeEachOther i s t ht hc
    rw [hf, herr, BitVec.ofNat_eq_ofNat, BitVec.zero_or]
    rcases causes with rfl | rfl | ⟨-, late, ⟨-, -, early⟩ | ⟨body, -⟩⟩ | ⟨-, ⟨-, body, -⟩, -⟩
    · rfl
    · rfl
    · simp [breakComplete_of_timedOut h hp mult late] at early
    · simp [hp] at body
    · simp [hp] at body

/-- Settles O48: the break byte is closed, and eight data bits stand between the start and the stop bit. -/
theorem breakByteIsNineBitsLow : Obligations.BreakByteIsNineBitsLow :=
  ⟨by decide, fun b => by simp [wireLevels, bitsPerByte]⟩

/-- R130: at an even rate the break byte takes two byte-times of the full rate. -/
theorem breakByteTime_even {baud : BitVec 24} (even : baud.toNat % 2 = 0) :
    breakByteTime baud = 2 * (10000000 / baud.toNat : ℚ) := by
  have half : (breakRate baud).toNat = baud.toNat / 2 := BitVec.toNat_udiv
  have twice : (baud.toNat : ℚ) = 2 * (baud.toNat / 2 : Nat) := by
    exact_mod_cast (Nat.mul_div_cancel' (Nat.dvd_of_mod_eq_zero even)).symm
  rw [breakByteTime, byteTime, bitTime, half, twice, bitsPerByte, clockHz]
  push_cast
  ring

/-- R121, R130: a byte-time rounded down to whole microseconds. -/
theorem div_bounds (a : Nat) {b : Nat} (hb : 0 < b) :
    ((a / b : Nat) : ℚ) ≤ a / b ∧ (a : ℚ) / b < (a / b : Nat) + 1 := by
  refine ⟨Nat.cast_div_le, ?_⟩
  rw [div_lt_iff₀ (by exact_mod_cast hb), mul_comm]
  exact_mod_cast Nat.lt_mul_div_succ a hb

/-- Settles O49: the break byte takes two byte-times, and TBRK is two byte-times rounded down. -/
theorem thresholdIsAtTheBreakBytesEnd : Obligations.ThresholdIsAtTheBreakBytesEnd := by
  intro p baud hmult hbaud even
  obtain ⟨low, -⟩ := (legalBaud_eq_true baud).mp hbaud
  obtain ⟨value, bound⟩ := tbyteOf_toNat low
  have htbrk : (tbrkOf p (tbyteOf baud)).toNat = 2 * (10000000 / baud.toNat) := by
    rw [tbrkOf_toNat p (value.trans_le bound), value, hmult]
    rfl
  obtain ⟨below, above⟩ := div_bounds 10000000 (Nat.zero_lt_of_lt low)
  rw [htbrk, breakByteTime_even even]
  push_cast at below above ⊢
  constructor <;> linarith

end Sys2Proof.Machine
end

section
/-! Whole transactions: REQUEST, a POLL past the threshold and a POLL that finds the answer (spec/95 scenarios 2 and 3,
program P2). -/

namespace Sys2Proof.Machine

/-- R126, R129: a transaction of the payload of `s` in BODY, with the bytes `rx` in the receive buffer. -/
structure Answered (id : BitVec 6) (len : BitVec 4) (mode : ChecksumMode) (dir : Direction) (s : State)
    (rx : List Byte) (b : State) : Prop where
  frame : b.frame = assembleFrame s.params (s.payload len) id len mode dir
  txframe : b.txframe = padTo 12 (outgoingBytes id (s.payload len) mode dir)
  err : b.err = 0
  accept : b.accept = true
  rx : b.rx = rx

/-- R122: a POLL past the threshold, counted from the start of the break, finds the break complete. -/
theorem breakComplete_after_startBreak (u : State) {e : Event} (rest : List Event) (hthreshold : u.tbrk.toNat < e.dt)
    (hwrap : e.dt < 2 ^ 32) : (arrive e rest (afterStartBreak u)).breakComplete = true := by
  have started : ((afterStartBreak u).elapsed (afterStartBreak u).tstartBrk).toNat = 0 :=
    congrArg BitVec.toNat (BitVec.sub_self u.now)
  have elapsed := elapsed_arrive (s := afterStartBreak u) (ref := (afterStartBreak u).tstartBrk) (e := e) rest
    (by omega)
  rw [started, Nat.zero_add] at elapsed
  exact (breakComplete_iff _).mpr (hthreshold.trans_eq elapsed.symm)

/-- R129, R153: the step that sends the post-break bytes. -/
theorem step_poll_past_threshold {u : State} {e : Event} {rest : List Event} (hpending : u.pending = e :: rest)
    (ha : e.access = .write u.params.base 4 0x00000002) (hthreshold : u.tbrk.toNat < e.dt) (hwrap : e.dt < 2 ^ 32)
    (hroom : u.frame.txlen.toNat - 1 ≤ e.txRoom) :
    step (afterStartBreak u) = .next (afterStepBody (arrive e rest (afterStartBreak u))) := by
  have fits : (arrive e rest (afterStartBreak u)).bodyBytes.length ≤ e.txRoom := by
    rw [State.bodyBytes, length_slice]
    exact (Nat.min_le_left _ _).trans hroom
  rw [step_poll (s := afterStartBreak u) hpending ha, execPoll_brk rfl]
  exact stepBodyFn_sends rfl (breakComplete_after_startBreak u rest hthreshold hwrap) fits

/-- R133, R153: the step that receives the answer. -/
theorem step_poll_answered {u : State} {e : Event} {rest : List Event} (hp : u.phase = .body)
    (hpending : u.pending = e :: rest) (ha : e.access = .write u.params.base 4 0x00000002)
    (enough : u.frame.rxlen.toNat ≤ e.rx.length) : step u = .next (afterStepRecv (arrive e rest u)) := by
  rw [step_poll hpending ha, execPoll_body (s := arrive e rest u) hp]
  exact stepRecvFn_receives hp enough

/-- R152, R153: REQUEST and the two POLLs end in the reception of the answer. -/
theorem run_transaction {id : BitVec 6} {len : BitVec 4} {mode : ChecksumMode} {dir : Direction} {s : State}
    {e1 e2 e3 : Event} {rest : List Event} (hlen : len.toNat ≤ 8) (hf : s.inFlight = false)
    (hpending : s.pending = e1 :: e2 :: e3 :: rest)
    (ha1 : e1.access = .write s.params.base 4 (encode (.request id len mode dir))) (hroom1 : 1 ≤ e1.txRoom)
    (ha2 : e2.access = .write s.params.base 4 0x00000002) (hthreshold : s.tbrk.toNat < e2.dt) (hwrap : e2.dt < 2 ^ 32)
    (hroom2 : (txlenOf len dir).toNat - 1 ≤ e2.txRoom) (ha3 : e3.access = .write s.params.base 4 0x00000002)
    (enough : (rxlenOf s.params len dir).toNat ≤ e3.rx.length) :
    ∃ b, run 3 s = .next (afterStepRecv b) ∧ Answered id len mode dir s e3.rx b := by
  have hrequest := step_command hpending ha1
  rw [decodeWord_encode, exec_request_accepted (s := arrive e1 (e2 :: e3 :: rest) s) hlen hf,
    startBreak_starts rfl rfl hroom1] at hrequest
  have hbody := step_poll_past_threshold (u := latch id len mode dir (arrive e1 (e2 :: e3 :: rest) s)) rfl ha2
    hthreshold hwrap hroom2
  exact ⟨_, run_three hrequest hbody (step_poll_answered rfl rfl ha3 enough), rfl, rfl, rfl, rfl, rfl⟩

/-- R133: the bytes of RXBUF below RXLEN are those received. -/
theorem slice_receivedBuffer {b : State} {lo n : Nat} (hn : lo + n ≤ b.frame.rxlen.toNat)
    (enough : b.frame.rxlen.toNat ≤ b.rx.length) (hfit : lo + n ≤ 12) :
    slice (receivedBuffer b) lo n = (b.rx.drop lo).take n := by
  have count := List.length_take_of_le enough
  rw [receivedBuffer, overlay, List.take_zero, List.nil_append, slice_padTo _ (by rw [List.length_append]; omega) hfit,
    List.drop_append_of_le_length (by omega), List.take_append_of_le_length (by rw [List.length_drop]; omega),
    List.drop_take, List.take_take, Nat.min_eq_left (by omega)]

/-- R88, R125: a correct header, `LEN` bytes of data, a checksum byte, and whatever follows. -/
def answer (id : BitVec 6) (data : List Byte) (c : Byte) (extra : List Byte) : List Byte :=
  [0x00, 0x55, pidOf id] ++ data ++ [c] ++ extra

section
variable {id : BitVec 6} {len : BitVec 4} {mode : ChecksumMode} {dir : Direction} {s b : State} {data extra : List Byte}
  {c : Byte}

theorem length_answer (hdata : data.length = len.toNat) :
    (answer id data c extra).length = len.toNat + 4 + extra.length := by
  simp [answer, hdata]
  omega

/-- R125: RXLEN covers the header, and no more than is answered and than RXBUF holds. -/
theorem rxlen_bounds (p : Params) (hlen : len.toNat ≤ 8) (dir : Direction) :
    3 ≤ (rxlenOf p len dir).toNat ∧ (rxlenOf p len dir).toNat ≤ len.toNat + 4 := by
  rw [rxlenOf_toNat p hlen]
  split <;> omega

section
variable (hlen : len.toNat ≤ 8) (hdata : data.length = len.toNat)
  (h : Answered id len mode dir s (answer id data c extra) b)
include hlen hdata h

/-- R125: what is answered is enough for StepRecv. -/
theorem rxlen_le_length_answer : b.frame.rxlen.toNat ≤ b.rx.length := by
  rw [h.rx, length_answer hdata, h.frame]
  exact (rxlen_bounds s.params hlen dir).2.trans (Nat.le_add_right _ _)

/-- R133: RXBUF byte by byte, below RXLEN. -/
theorem byteAt_received {k : Nat} (hk : k < b.frame.rxlen.toNat) :
    byteAt (receivedBuffer b) k = (answer id data c extra).getD k 0 := by
  have bound : b.frame.rxlen.toNat ≤ len.toNat + 4 := by
    rw [h.frame]
    exact (rxlen_bounds s.params hlen dir).2
  rw [byteAt_receivedBuffer (rxlen_le_length_answer hlen hdata h) (by omega), if_pos hk, h.rx]

/-- R40: the payload of an answer with data. -/
theorem slice_received (hrxlen : b.frame.rxlen.toNat = len.toNat + 4) :
    slice (receivedBuffer b) 3 len.toNat = data := by
  rw [slice_receivedBuffer (by omega) (rxlen_le_length_answer hlen hdata h) (by omega), h.rx, ← hdata]
  simp [answer]

/-- R108: the echo of the header is correct. -/
theorem echoMismatch_answered : echoMismatch b.params b.txframe (receivedBuffer b) = false := by
  have header {k : Nat} (hk : k < 3) : byteAt (receivedBuffer b) k = byteAt b.txframe k := by
    have covered : 3 ≤ b.frame.rxlen.toNat := by
      rw [h.frame]
      exact (rxlen_bounds s.params hlen dir).1
    rw [byteAt_received hlen hdata h (by omega), h.txframe, byteAt_padTo_of_lt _ (by omega),
      getD_outgoingBytes_header id _ mode dir hk, answer, List.append_assoc, List.append_assoc,
      List.getD_append _ _ _ _ hk]
    rfl
  have artifact : byteAt b.txframe 0 = 0 := by
    rw [h.txframe, byteAt_padTo_of_lt _ (by decide)]
    exact getD_outgoingBytes_header id _ mode dir (by decide)
  rw [Bool.eq_false_iff, Ne, echoMismatch_eq_true, header (k := 0) (by decide), header (k := 1) (by decide),
    header (k := 2) (by decide), artifact]
  simp

/-- R109: the checksum is tested when it is received, against that of the data received. -/
theorem checksumMismatch_answered :
    checksumMismatch b.frame (receivedBuffer b) = true ↔
      b.frame.rxlen.toNat = len.toNat + 4 ∧ c ≠ computeChecksum (pidOf id) data mode := by
  have hframe : b.frame.len = len ∧ b.frame.pid = pidOf id ∧ b.frame.mode = mode := by
    rw [h.frame]
    exact ⟨rfl, rfl, rfl⟩
  obtain ⟨flen, fpid, fmode⟩ := hframe
  rw [checksumMismatch_eq_true, flen, fpid, fmode]
  refine and_congr_right fun hrxlen => ?_
  have payload := slice_received hlen hdata h hrxlen
  rw [slice] at payload
  have checksum : byteAt (receivedBuffer b) (3 + len.toNat) = c := by
    rw [byteAt_received hlen hdata h (by omega), ← hdata]
    simp [answer, List.getD_eq_getElem?_getD, Nat.add_comm 3]
  rw [payload, checksum, ne_comm]

/-- R107 to R110: ERR after the reception of an answer. -/
theorem err_answered :
    (afterStepRecv b).err =
      if b.frame.rxlen.toNat = len.toNat + 4 ∧ c ≠ computeChecksum (pidOf id) data mode then 0x8 else 0 := by
  have hchk := checksumMismatch_answered hlen hdata h
  rw [afterStepRecv, validateResponse, echoMismatch_answered hlen hdata h, h.err]
  by_cases wrong : b.frame.rxlen.toNat = len.toNat + 4 ∧ c ≠ computeChecksum (pidOf id) data mode
  · rw [hchk.mpr wrong, if_pos wrong]
    rfl
  · rw [Bool.eq_false_iff.mpr (mt hchk.mp wrong), if_neg wrong]
    rfl

end
end

/-- Settles O45: the answer is the frame itself, whose checksum is right, byte for byte as far as RXLEN goes. -/
theorem healthyWriteEndsWithoutError : Obligations.HealthyWriteEndsWithoutError := by
  intro id len mode s e1 e2 e3 rest extra hlen hphase hpending ha1 hroom1 ha2 hthreshold hwrap hroom2 ha3 hrx
  have hdata := length_payload s hlen
  rw [← payload_eq] at hrx
  have hanswer : e3.rx = answer id (s.payload len) (computeChecksum (pidOf id) (s.payload len) mode) extra := hrx
  have txlen := txlenOf_toNat hlen .write
  have covered := (rxlen_bounds s.params hlen .write).2
  have enough : (rxlenOf s.params len .write).toNat ≤ e3.rx.length := by
    rw [hanswer, length_answer hdata]
    omega
  obtain ⟨b, hrun, hb⟩ := run_transaction hlen ((inFlight_eq_false s).mpr hphase) hpending ha1 hroom1 ha2 hthreshold
    hwrap (by simp only [txlen, if_true]; omega) ha3 enough
  rw [hanswer] at hb
  refine ⟨afterStepRecv b, hrun, rfl, ?_, rfl, hb.accept, fun k hk => ?_⟩
  · rw [err_answered hlen hdata hb, if_neg fun wrong => wrong.2 rfl]
  · have sent : k.val < (outgoingBytes id (s.payload len) mode .write).length := by
      rw [length_outgoingBytes id mode .write hlen hdata, txlen, if_pos rfl]
      refine Nat.lt_of_lt_of_le hk (le_trans (le_of_eq ?_) covered)
      exact congrArg (fun f => f.rxlen.toNat) hb.frame
    calc byteAt (receivedBuffer b) k.val
        = (outgoingBytes id (s.payload len) mode .write ++ extra).getD k.val 0 := byteAt_received hlen hdata hb hk
      _ = (outgoingBytes id (s.payload len) mode .write).getD k.val 0 := List.getD_append _ _ _ _ sent
      _ = byteAt b.txframe k.val := by rw [hb.txframe, byteAt_padTo_of_lt _ k.isLt]; rfl

/-- Settles O46: RXLEN covers the checksum byte, which is the last one read. -/
theorem masterReadChecksTheSlavesChecksum : Obligations.MasterReadChecksTheSlavesChecksum := by
  intro id len mode s e1 e2 e3 rest data extra c hlen hdata hphase hpending ha1 hroom1 ha2 hthreshold hwrap hroom2 ha3
    hanswer
  change e3.rx = answer id data c extra at hanswer
  have hrxlen : (rxlenOf s.params len .read).toNat = len.toNat + 4 := len_add_four hlen
  have enough : (rxlenOf s.params len .read).toNat ≤ e3.rx.length := by
    rw [hanswer, length_answer hdata, hrxlen]
    omega
  obtain ⟨b, hrun, hb⟩ := run_transaction hlen ((inFlight_eq_false s).mpr hphase) hpending ha1 hroom1 ha2 hthreshold
    hwrap (dir := .read) hroom2 ha3 enough
  rw [hanswer] at hb
  have brxlen : b.frame.rxlen.toNat = len.toNat + 4 := (congrArg (fun f => f.rxlen.toNat) hb.frame).trans hrxlen
  refine ⟨afterStepRecv b, hrun, rfl, rfl, ?_, ?_, slice_received hlen hdata hb brxlen⟩
  · change b.rx.drop b.frame.rxlen.toNat = extra
    rw [hb.rx, brxlen, answer, List.drop_left']
    simp [hdata]
  · rw [err_answered hlen hdata hb]
    by_cases right : c = computeChecksum (pidOf id) data mode <;> simp [right, brxlen]

end Sys2Proof.Machine
end
